-- ==== Sys2Proof/Word.lean ====
section
/-! DEFINITION. The data types of the fhaes block: the command word and cleartext byte (R10, R90), the ciphertexts of
the two engines (R5, R7, R8), blocks and key schedules (R11), and the beats of a payload (R63, R94). -/

namespace Sys2Proof

/-- A 32-bit command or status word (R4 CMDW, R90, R32). -/
abbrev Word := BitVec 32

/-- A cleartext byte: an unsigned number in [0,255] (R10). -/
abbrev Byte := BitVec 8

/-- An ArithmeticByte, one ciphertext of engine A (R4 `CtA`, R5). `val` is the byte it denotes. `rest` stands for
everything else a ciphertext is (size, noise, randomness, identity: R36, 93 U4); the laws fix nothing about it, so the
result of an evaluation takes it from `Config.freeRest` (assumption 2). -/
structure CtA where
  val : Byte
  rest : Nat
deriving DecidableEq, Repr, Inhabited

/-- One boolean ciphertext, of engine B (R4 `CtB`, R5). `val` is the bit it denotes, `triv` says whether trivial
encryption produced it (R36; only DECRYPT.B mode 1 reads it), `rest` is as in `CtA`. -/
structure CtB where
  val : Bool
  triv : Bool
  rest : Nat
deriving DecidableEq, Repr, Inhabited

/-- A BitVectorByte: exactly 8 boolean ciphertexts, index 0 the least significant bit (R5, R62). -/
abbrev BvByte := Vector CtB 8

/-- An EncryptedBlock: 16 elements, the one at row `r`, column `c` at index `r + 4*c` (R11, R61). -/
abbrev Block (α : Type) := Vector α 16

/-- A RoundKeySchedule: 176 elements, byte `i` of round key `t` at index `16*t + i` (R11, R23). -/
abbrev Schedule (α : Type) := Vector α 176

/-- One indivisible beat of a payload (R63): one `CtA` on engine A, one BitVectorByte on engine B, and one boolean
ciphertext for LD.KONST.B. -/
inductive Beat where
  | arith (c : CtA)
  | bits (v : BvByte)
  | bit (c : CtB)
deriving DecidableEq, Repr

/-- Where in a command a primitive evaluation stands: the path of indices from the command's own number down to the
evaluation. No two evaluations have the same ticket (assumption 2). -/
abbrev Ticket := List Nat

/-- The two engine instances of the block, told apart by bit 27 of a command word (R20, R90). -/
inductive EngineId where
  | A
  | B
deriving DecidableEq, Repr

end Sys2Proof
end

