-- ==== Sys2Proof/Syntax.lean ====
section
/-! DEFINITION. The commands of the block, one constructor per row of spec/opcode_table.json (R91, R99), and their ARG
operands (R93). The payload of an LD command is no part of the word: it stands on the command port (R94). -/

namespace Sys2Proof

/-- The mode of DECRYPT.B, its SEL field (R92, R182). -/
inductive DecryptMode where
  | secretKey
  | trivial
deriving DecidableEq, Repr

/-- A decoded command. An operand is the ARG field as an unsigned number (R93): `t` a round index, `n` a block count,
`idx` a block or slot index. -/
inductive Instr where
  | addrkA (t : Nat)
  | addrkB (t : Nat)
  | subbA
  | subbB
  | shrowA
  | shrowB
  | mixcA
  | mixcB
  | encblkA
  | encblkB
  | ctrA (n : Nat)
  | ctrB (n : Nat)
  | ldStA
  | ldStB
  | ldIvA
  | ldIvB
  | ldRkA
  | ldRkB
  | ldPtA (idx : Nat)
  | ldPtB (idx : Nat)
  | ldCmloB
  | ldCmhiB
  | ldKonstB
  | stStA
  | stStB
  | stOutA (idx : Nat)
  | stOutB (idx : Nat)
  | decryptB (mode : DecryptMode) (idx : Nat)
  | setkeyEkA
  | setkeyEkB
  | setkeySkB
  | rdstatStatusA
  | rdstatStatusB
  | rdstatOutnA
  | rdstatOutnB
  | rdstatCmlonB
  | rdstatCmhinB
  | rdstatCapA
  | rdstatCapB
  | resetA
  | resetB
deriving DecidableEq, Repr

/-- The engine a command addresses, which bit 27 of its word selects (R90). -/
def Instr.engine : Instr → EngineId
  | .addrkA _ | .subbA | .shrowA | .mixcA | .encblkA | .ctrA _ | .ldStA | .ldIvA | .ldRkA | .ldPtA _ | .stStA
  | .stOutA _ | .setkeyEkA | .rdstatStatusA | .rdstatOutnA | .rdstatCapA | .resetA => .A
  | .addrkB _ | .subbB | .shrowB | .mixcB | .encblkB | .ctrB _ | .ldStB | .ldIvB | .ldRkB | .ldPtB _ | .ldCmloB
  | .ldCmhiB | .ldKonstB | .stStB | .stOutB _ | .decryptB _ _ | .setkeyEkB | .setkeySkB | .rdstatStatusB
  | .rdstatOutnB | .rdstatCmlonB | .rdstatCmhinB | .rdstatCapB | .resetB => .B

/-- Whether the command is an LD, the only operation that carries a payload (R94). -/
def Instr.isLoad : Instr → Bool
  | .ldStA | .ldStB | .ldIvA | .ldIvB | .ldRkA | .ldRkB | .ldPtA _ | .ldPtB _ | .ldCmloB | .ldCmhiB | .ldKonstB => true
  | .addrkA _ | .addrkB _ | .subbA | .subbB | .shrowA | .shrowB | .mixcA | .mixcB | .encblkA | .encblkB | .ctrA _
  | .ctrB _ | .stStA | .stStB | .stOutA _ | .stOutB _ | .decryptB _ _ | .setkeyEkA | .setkeyEkB | .setkeySkB
  | .rdstatStatusA | .rdstatStatusB | .rdstatOutnA | .rdstatOutnB | .rdstatCmlonB | .rdstatCmhinB | .rdstatCapA
  | .rdstatCapB | .resetA | .resetB => false

/-- The value of the ARG field; 0 for the commands whose ARG must be 0 (R93). -/
def Instr.arg : Instr → Nat
  | .addrkA t | .addrkB t => t
  | .ctrA n | .ctrB n => n
  | .ldPtA idx | .ldPtB idx | .stOutA idx | .stOutB idx => idx
  | .decryptB _ idx => idx
  | .subbA | .subbB | .shrowA | .shrowB | .mixcA | .mixcB | .encblkA | .encblkB | .ldStA | .ldStB | .ldIvA | .ldIvB
  | .ldRkA | .ldRkB | .ldCmloB | .ldCmhiB | .ldKonstB | .stStA | .stStB | .setkeyEkA | .setkeyEkB | .setkeySkB
  | .rdstatStatusA | .rdstatStatusB | .rdstatOutnA | .rdstatOutnB | .rdstatCmlonB | .rdstatCmhinB | .rdstatCapA
  | .rdstatCapB | .resetA | .resetB => 0

end Sys2Proof
end

