-- ==== Sys2Proof/WellFormed.lean ====
section
/-! DEFINITION. When a command can be written as a word: its operand fits the 16-bit ARG field (R4 ARGW, R93). -/

namespace Sys2Proof

/-- The operand fits ARG, "a 16-bit unsigned number" (R93). SEL values need no check: the constructors name only those
of R92. -/
abbrev Instr.wellFormed (i : Instr) : Prop := i.arg < 2 ^ 16

end Sys2Proof
end

