-- ==== Sys2Proof/Decode.lean ====
section
/-! DEFINITION. The decoder of command words, field by field from R90 to R96, total and rejecting by name; the rows of
R99 and the encoder written from them; the word the host's opcode table shows (decodeTableWord). -/

namespace Sys2Proof

/-- Why a command is illegal, one reason per clause of R96. Each has the same effect, the error IllegalCmd (R309). -/
inductive Illegal where
  /-- OP is 0x0, 0xC, 0xD or 0xE. -/
  | reservedOp
  /-- RSV is not 0. -/
  | reservedBits
  /-- SEL is not a value R92 lists for the OP and engine. -/
  | badSelector
  /-- ARG is not 0 where R93 requires 0. -/
  | argNotZero
  /-- OP is 0x9 with ENG = 0. -/
  | decryptOnEngineA
  /-- The command is not LD and its payload is not empty. -/
  | payloadOnNonLoad
deriving DecidableEq, Repr

/-- The fields of format C (R90). -/
structure Fields where
  op : Nat
  eng : EngineId
  rsv : Nat
  sel : Nat
  arg : Nat
deriving DecidableEq, Repr

/-- `bits[hi:lo]` of a word: the unsigned field from bit `lo` to bit `hi` inclusive (R10). -/
def bitField (w : Word) (hi lo : Nat) : Nat := w.toNat / 2 ^ lo % 2 ^ (hi + 1 - lo)

/-- The engine that bit 27 of a word selects (R90). -/
def engineOf (w : Word) : EngineId := if bitField w 27 27 = 0 then .A else .B

/-- The fields of a word in format C (R90). -/
def fieldsOf (w : Word) : Fields :=
  ⟨bitField w 31 28, engineOf w, bitField w 26 24, bitField w 23 16, bitField w 15 0⟩

/-- The command `i`, if ARG is 0 as R93 requires of it. -/
def needArgZero (f : Fields) (i : Instr) : Except Illegal Instr :=
  if f.arg = 0 then .ok i else .error .argNotZero

/-- `r`, if SEL is 0 (R92: "for every other OP: SEL must be 0"). -/
def needSelZero (f : Fields) (r : Except Illegal Instr) : Except Illegal Instr :=
  if f.sel = 0 then r else .error .badSelector

/-- `a` on engine A, `b` on engine B. -/
def byEngine (f : Fields) (a b : Except Illegal Instr) : Except Illegal Instr :=
  match f.eng with
  | .A => a
  | .B => b

/-- A selector value that is "B only": with ENG = 0 it is not listed (R92). -/
def engineBOnly (f : Fields) (b : Except Illegal Instr) : Except Illegal Instr :=
  byEngine f (.error .badSelector) b

/-- LD (OP 0x7), by the space SEL names; SEL 4 (OUT) is not loadable (R92). -/
def decodeLoad (f : Fields) : Except Illegal Instr :=
  match f.sel with
  | 0 => byEngine f (needArgZero f .ldStA) (needArgZero f .ldStB)
  | 1 => byEngine f (needArgZero f .ldIvA) (needArgZero f .ldIvB)
  | 2 => byEngine f (needArgZero f .ldRkA) (needArgZero f .ldRkB)
  | 3 => byEngine f (.ok (.ldPtA f.arg)) (.ok (.ldPtB f.arg))
  | 5 => engineBOnly f (needArgZero f .ldCmloB)
  | 6 => engineBOnly f (needArgZero f .ldCmhiB)
  | 7 => engineBOnly f (needArgZero f .ldKonstB)
  | _ => .error .badSelector

/-- ST (OP 0x8): 0 = ST, 4 = OUT (R92). -/
def decodeStore (f : Fields) : Except Illegal Instr :=
  match f.sel with
  | 0 => byEngine f (needArgZero f .stStA) (needArgZero f .stStB)
  | 4 => byEngine f (.ok (.stOutA f.arg)) (.ok (.stOutB f.arg))
  | _ => .error .badSelector

/-- DECRYPT (OP 0x9), engine B only: SEL is the mode, ARG the byte index (R91 to R93). -/
def decodeDecrypt (f : Fields) : Except Illegal Instr :=
  byEngine f (.error .decryptOnEngineA)
    (match f.sel with
    | 0 => .ok (.decryptB .secretKey f.arg)
    | 1 => .ok (.decryptB .trivial f.arg)
    | _ => .error .badSelector)

/-- SETKEY (OP 0xA): 0 = evaluation key, 1 = secret key (B only) (R92). -/
def decodeSetkey (f : Fields) : Except Illegal Instr :=
  match f.sel with
  | 0 => byEngine f (needArgZero f .setkeyEkA) (needArgZero f .setkeyEkB)
  | 1 => engineBOnly f (needArgZero f .setkeySkB)
  | _ => .error .badSelector

/-- RDSTAT (OP 0xB): 0 = STATUS, 1 = OUTN, 2 = CMLON (B only), 3 = CMHIN (B only), 4 = NBLK_MAX (R92). -/
def decodeRdstat (f : Fields) : Except Illegal Instr :=
  match f.sel with
  | 0 => byEngine f (needArgZero f .rdstatStatusA) (needArgZero f .rdstatStatusB)
  | 1 => byEngine f (needArgZero f .rdstatOutnA) (needArgZero f .rdstatOutnB)
  | 2 => engineBOnly f (needArgZero f .rdstatCmlonB)
  | 3 => engineBOnly f (needArgZero f .rdstatCmhinB)
  | 4 => byEngine f (needArgZero f .rdstatCapA) (needArgZero f .rdstatCapB)
  | _ => .error .badSelector

/-- The command that the fields of a word name, its payload left aside (R91 to R93, R96). -/
def decodeFields (f : Fields) : Except Illegal Instr :=
  if f.rsv = 0 then
    match f.op with
    | 0x1 => needSelZero f (byEngine f (.ok (.addrkA f.arg)) (.ok (.addrkB f.arg)))
    | 0x2 => needSelZero f (byEngine f (needArgZero f .subbA) (needArgZero f .subbB))
    | 0x3 => needSelZero f (byEngine f (needArgZero f .shrowA) (needArgZero f .shrowB))
    | 0x4 => needSelZero f (byEngine f (needArgZero f .mixcA) (needArgZero f .mixcB))
    | 0x5 => needSelZero f (byEngine f (needArgZero f .encblkA) (needArgZero f .encblkB))
    | 0x6 => needSelZero f (byEngine f (.ok (.ctrA f.arg)) (.ok (.ctrB f.arg)))
    | 0x7 => decodeLoad f
    | 0x8 => decodeStore f
    | 0x9 => decodeDecrypt f
    | 0xA => decodeSetkey f
    | 0xB => decodeRdstat f
    | 0xF => needSelZero f (byEngine f (needArgZero f .resetA) (needArgZero f .resetB))
    | _ => .error .reservedOp
  else .error .reservedBits

/-- The decoder: the command of word `w` presented with `beats` beats of payload, or the reason it is illegal. Only LD
carries a payload (R94, R96). -/
def decode (w : Word) (beats : Nat) : Except Illegal Instr :=
  match decodeFields (fieldsOf w) with
  | .error e => .error e
  | .ok i => if i.isLoad ∨ beats = 0 then .ok i else .error .payloadOnNonLoad

/-- One row of R99: a word `w` selects it when `w &&& mask = pattern`. -/
structure OpcodeRow where
  mnemonic : String
  pattern : Word
  mask : Word
deriving DecidableEq, Repr

/-- The rows of R99 for the transforms, the driver and the composer. -/
def transformRows : List OpcodeRow :=
  [
   ⟨"ADDRK.A", 0x10000000, 0xffff0000⟩,
   ⟨"ADDRK.B", 0x18000000, 0xffff0000⟩,
   ⟨"SUBB.A", 0x20000000, 0xffffffff⟩,
   ⟨"SUBB.B", 0x28000000, 0xffffffff⟩,
   ⟨"SHROW.A", 0x30000000, 0xffffffff⟩,
   ⟨"SHROW.B", 0x38000000, 0xffffffff⟩,
   ⟨"MIXC.A", 0x40000000, 0xffffffff⟩,
   ⟨"MIXC.B", 0x48000000, 0xffffffff⟩,
   ⟨"ENCBLK.A", 0x50000000, 0xffffffff⟩,
   ⟨"ENCBLK.B", 0x58000000, 0xffffffff⟩,
   ⟨"CTR.A", 0x60000000, 0xffff0000⟩,
   ⟨"CTR.B", 0x68000000, 0xffff0000⟩]

/-- The rows of R99 for the loads. -/
def loadRows : List OpcodeRow :=
  [
   ⟨"LD.ST.A", 0x70000000, 0xffffffff⟩,
   ⟨"LD.ST.B", 0x78000000, 0xffffffff⟩,
   ⟨"LD.IV.A", 0x70010000, 0xffffffff⟩,
   ⟨"LD.IV.B", 0x78010000, 0xffffffff⟩,
   ⟨"LD.RK.A", 0x70020000, 0xffffffff⟩,
   ⟨"LD.RK.B", 0x78020000, 0xffffffff⟩,
   ⟨"LD.PT.A", 0x70030000, 0xffff0000⟩,
   ⟨"LD.PT.B", 0x78030000, 0xffff0000⟩,
   ⟨"LD.CMLO.B", 0x78050000, 0xffffffff⟩,
   ⟨"LD.CMHI.B", 0x78060000, 0xffffffff⟩,
   ⟨"LD.KONST.B", 0x78070000, 0xffffffff⟩]

/-- The rows of R99 for the stores, DECRYPT.B, the keys, the status reads and RESET. -/
def controlRows : List OpcodeRow :=
  [
   ⟨"ST.ST.A", 0x80000000, 0xffffffff⟩,
   ⟨"ST.ST.B", 0x88000000, 0xffffffff⟩,
   ⟨"ST.OUT.A", 0x80040000, 0xffff0000⟩,
   ⟨"ST.OUT.B", 0x88040000, 0xffff0000⟩,
   ⟨"DECRYPT.B", 0x98000000, 0xfffe0000⟩,
   ⟨"SETKEY.EK.A", 0xa0000000, 0xffffffff⟩,
   ⟨"SETKEY.EK.B", 0xa8000000, 0xffffffff⟩,
   ⟨"SETKEY.SK.B", 0xa8010000, 0xffffffff⟩,
   ⟨"RDSTAT.STATUS.A", 0xb0000000, 0xffffffff⟩,
   ⟨"RDSTAT.STATUS.B", 0xb8000000, 0xffffffff⟩,
   ⟨"RDSTAT.OUTN.A", 0xb0010000, 0xffffffff⟩,
   ⟨"RDSTAT.OUTN.B", 0xb8010000, 0xffffffff⟩,
   ⟨"RDSTAT.CMLON.B", 0xb8020000, 0xffffffff⟩,
   ⟨"RDSTAT.CMHIN.B", 0xb8030000, 0xffffffff⟩,
   ⟨"RDSTAT.CAP.A", 0xb0040000, 0xffffffff⟩,
   ⟨"RDSTAT.CAP.B", 0xb8040000, 0xffffffff⟩,
   ⟨"RESET.A", 0xf0000000, 0xffffffff⟩,
   ⟨"RESET.B", 0xf8000000, 0xffffffff⟩]

/-- The 41 rows of R99, in the order of spec/opcode_table.json. -/
def opcodeRows : List OpcodeRow := transformRows ++ loadRows ++ controlRows

/-- The mnemonic of a command's row (R99). -/
def Instr.mnemonic : Instr → String
  | .addrkA _ => "ADDRK.A"
  | .addrkB _ => "ADDRK.B"
  | .subbA => "SUBB.A"
  | .subbB => "SUBB.B"
  | .shrowA => "SHROW.A"
  | .shrowB => "SHROW.B"
  | .mixcA => "MIXC.A"
  | .mixcB => "MIXC.B"
  | .encblkA => "ENCBLK.A"
  | .encblkB => "ENCBLK.B"
  | .ctrA _ => "CTR.A"
  | .ctrB _ => "CTR.B"
  | .ldStA => "LD.ST.A"
  | .ldStB => "LD.ST.B"
  | .ldIvA => "LD.IV.A"
  | .ldIvB => "LD.IV.B"
  | .ldRkA => "LD.RK.A"
  | .ldRkB => "LD.RK.B"
  | .ldPtA _ => "LD.PT.A"
  | .ldPtB _ => "LD.PT.B"
  | .ldCmloB => "LD.CMLO.B"
  | .ldCmhiB => "LD.CMHI.B"
  | .ldKonstB => "LD.KONST.B"
  | .stStA => "ST.ST.A"
  | .stStB => "ST.ST.B"
  | .stOutA _ => "ST.OUT.A"
  | .stOutB _ => "ST.OUT.B"
  | .decryptB _ _ => "DECRYPT.B"
  | .setkeyEkA => "SETKEY.EK.A"
  | .setkeyEkB => "SETKEY.EK.B"
  | .setkeySkB => "SETKEY.SK.B"
  | .rdstatStatusA => "RDSTAT.STATUS.A"
  | .rdstatStatusB => "RDSTAT.STATUS.B"
  | .rdstatOutnA => "RDSTAT.OUTN.A"
  | .rdstatOutnB => "RDSTAT.OUTN.B"
  | .rdstatCmlonB => "RDSTAT.CMLON.B"
  | .rdstatCmhinB => "RDSTAT.CMHIN.B"
  | .rdstatCapA => "RDSTAT.CAP.A"
  | .rdstatCapB => "RDSTAT.CAP.B"
  | .resetA => "RESET.A"
  | .resetB => "RESET.B"

/-- The fixed bits of a command's word (R99), with the mode of DECRYPT.B in SEL (R182). -/
def Instr.pattern : Instr → Word
  | .addrkA _ => 0x10000000
  | .addrkB _ => 0x18000000
  | .subbA => 0x20000000
  | .subbB => 0x28000000
  | .shrowA => 0x30000000
  | .shrowB => 0x38000000
  | .mixcA => 0x40000000
  | .mixcB => 0x48000000
  | .encblkA => 0x50000000
  | .encblkB => 0x58000000
  | .ctrA _ => 0x60000000
  | .ctrB _ => 0x68000000
  | .ldStA => 0x70000000
  | .ldStB => 0x78000000
  | .ldIvA => 0x70010000
  | .ldIvB => 0x78010000
  | .ldRkA => 0x70020000
  | .ldRkB => 0x78020000
  | .ldPtA _ => 0x70030000
  | .ldPtB _ => 0x78030000
  | .ldCmloB => 0x78050000
  | .ldCmhiB => 0x78060000
  | .ldKonstB => 0x78070000
  | .stStA => 0x80000000
  | .stStB => 0x88000000
  | .stOutA _ => 0x80040000
  | .stOutB _ => 0x88040000
  | .decryptB .secretKey _ => 0x98000000
  | .decryptB .trivial _ => 0x98010000
  | .setkeyEkA => 0xa0000000
  | .setkeyEkB => 0xa8000000
  | .setkeySkB => 0xa8010000
  | .rdstatStatusA => 0xb0000000
  | .rdstatStatusB => 0xb8000000
  | .rdstatOutnA => 0xb0010000
  | .rdstatOutnB => 0xb8010000
  | .rdstatCmlonB => 0xb8020000
  | .rdstatCmhinB => 0xb8030000
  | .rdstatCapA => 0xb0040000
  | .rdstatCapB => 0xb8040000
  | .resetA => 0xf0000000
  | .resetB => 0xf8000000

/-- The encoder: the word of a well-formed command (R99; for example `0x1000_0000 | t` in R130). -/
def encode (i : Instr) : Word := i.pattern ||| BitVec.ofNat 32 i.arg

/-- The command the decoder reads from a table row's instruction of `nbits` bits `w`, presented with no payload. A command
is one 32-bit word (R90), so a number that needs more bits is none. -/
def decodeTableWord (nbits w : Nat) : Option Instr :=
  if w % 2 ^ nbits < 2 ^ 32 then
    match decode (BitVec.ofNat 32 (w % 2 ^ nbits)) 0 with
    | .ok i => some i
    | .error _ => none
  else none

end Sys2Proof
end

