-- ==== Sys2Proof/Config.lean ====
section
/-! DEFINITION. What an implementation fixes and the spec leaves open (R4, R36, 93_implementation_defined.md): the block
capacity NBLK_MAX, and the free values, opaque constants about which nothing can be proved. -/

namespace Sys2Proof

/-- A legal value of the open parameter NBLK_MAX: 1 ≤ NBLK_MAX ≤ 65535 (R4, 93 U12). -/
structure Capacity where
  blocks : Nat
  pos : 1 ≤ blocks
  le_max : blocks ≤ 65535
deriving DecidableEq, Repr

/-- One less than NBLK_MAX of the implementation: any number from 0 to 65534 (93 U12; assumption 1). -/
opaque Config.capacityPred : Fin 65535

/-- NBLK_MAX of the implementation (R4; assumption 1). -/
def Config.capacity : Capacity :=
  ⟨Config.capacityPred.val + 1, Nat.le_add_left 1 _, Config.capacityPred.isLt⟩

/-- What a ciphertext holds beyond its denoted value when an evaluation or a trivial encryption made it
(R5, R36, 93 U4; assumption 2). -/
opaque Config.freeRest : Ticket → Nat

/-- The `triv` attribute of the result of a gate (R36, 93 U7; assumption 3). -/
opaque Config.freeTriv : Ticket → Bool

/-- The product `A.cmul(b, k)` for a denoted `b` above 1, which R123 does not specify (assumption 4). -/
opaque Config.freeProduct : Byte → Byte → Byte

/-- The byte an oblivious lookup denotes when no pair of the table has its input (R124 speaks only of a table with 256
distinct inputs; assumption 5). -/
opaque Config.freeLookup : Byte → Byte

/-- What engine A stores of a beat that is no ArithmeticByte (H-ENC broken: R346, 93 U9; assumption 6). -/
opaque Config.misreadArith : Beat → CtA

/-- What engine B stores of a beat that is no BitVectorByte (H-ENC broken: R346, 93 U9; assumption 6). -/
opaque Config.misreadBits : Beat → BvByte

/-- What LD.KONST.B stores of a beat that is no single boolean ciphertext (H-ENC broken: R346, 93 U9; assumption 6). -/
opaque Config.misreadBit : Beat → CtB

end Sys2Proof
end

