-- ==== Sys2Proof/Machine/Sbox.lean ====
section
/-! DEFINITION. The substitution table SBOX of R28 and R170, and the gate list of the S-box circuit of R171. -/

namespace Sys2Proof.Machine

/-- The outputs of the AES S-box for the inputs 0x00 to 0x7F, sixteen a row (R170). -/
def sboxOutsLow : List Byte :=
  [0x63, 0x7c, 0x77, 0x7b, 0xf2, 0x6b, 0x6f, 0xc5, 0x30, 0x01, 0x67, 0x2b, 0xfe, 0xd7, 0xab, 0x76] ++
  [0xca, 0x82, 0xc9, 0x7d, 0xfa, 0x59, 0x47, 0xf0, 0xad, 0xd4, 0xa2, 0xaf, 0x9c, 0xa4, 0x72, 0xc0] ++
  [0xb7, 0xfd, 0x93, 0x26, 0x36, 0x3f, 0xf7, 0xcc, 0x34, 0xa5, 0xe5, 0xf1, 0x71, 0xd8, 0x31, 0x15] ++
  [0x04, 0xc7, 0x23, 0xc3, 0x18, 0x96, 0x05, 0x9a, 0x07, 0x12, 0x80, 0xe2, 0xeb, 0x27, 0xb2, 0x75] ++
  [0x09, 0x83, 0x2c, 0x1a, 0x1b, 0x6e, 0x5a, 0xa0, 0x52, 0x3b, 0xd6, 0xb3, 0x29, 0xe3, 0x2f, 0x84] ++
  [0x53, 0xd1, 0x00, 0xed, 0x20, 0xfc, 0xb1, 0x5b, 0x6a, 0xcb, 0xbe, 0x39, 0x4a, 0x4c, 0x58, 0xcf] ++
  [0xd0, 0xef, 0xaa, 0xfb, 0x43, 0x4d, 0x33, 0x85, 0x45, 0xf9, 0x02, 0x7f, 0x50, 0x3c, 0x9f, 0xa8] ++
  [0x51, 0xa3, 0x40, 0x8f, 0x92, 0x9d, 0x38, 0xf5, 0xbc, 0xb6, 0xda, 0x21, 0x10, 0xff, 0xf3, 0xd2]

/-- The outputs of the AES S-box for the inputs 0x80 to 0xFF, sixteen a row (R170). -/
def sboxOutsHigh : List Byte :=
  [0xcd, 0x0c, 0x13, 0xec, 0x5f, 0x97, 0x44, 0x17, 0xc4, 0xa7, 0x7e, 0x3d, 0x64, 0x5d, 0x19, 0x73] ++
  [0x60, 0x81, 0x4f, 0xdc, 0x22, 0x2a, 0x90, 0x88, 0x46, 0xee, 0xb8, 0x14, 0xde, 0x5e, 0x0b, 0xdb] ++
  [0xe0, 0x32, 0x3a, 0x0a, 0x49, 0x06, 0x24, 0x5c, 0xc2, 0xd3, 0xac, 0x62, 0x91, 0x95, 0xe4, 0x79] ++
  [0xe7, 0xc8, 0x37, 0x6d, 0x8d, 0xd5, 0x4e, 0xa9, 0x6c, 0x56, 0xf4, 0xea, 0x65, 0x7a, 0xae, 0x08] ++
  [0xba, 0x78, 0x25, 0x2e, 0x1c, 0xa6, 0xb4, 0xc6, 0xe8, 0xdd, 0x74, 0x1f, 0x4b, 0xbd, 0x8b, 0x8a] ++
  [0x70, 0x3e, 0xb5, 0x66, 0x48, 0x03, 0xf6, 0x0e, 0x61, 0x35, 0x57, 0xb9, 0x86, 0xc1, 0x1d, 0x9e] ++
  [0xe1, 0xf8, 0x98, 0x11, 0x69, 0xd9, 0x8e, 0x94, 0x9b, 0x1e, 0x87, 0xe9, 0xce, 0x55, 0x28, 0xdf] ++
  [0x8c, 0xa1, 0x89, 0x0d, 0xbf, 0xe6, 0x42, 0x68, 0x41, 0x99, 0x2d, 0x0f, 0xb0, 0x54, 0xbb, 0x16]

/-- `SBOX[x]` of R170. -/
def sboxByte (x : Byte) : Byte := (sboxOutsLow ++ sboxOutsHigh).getD x.toNat 0

/-- The fixed table as 256 pairs `(in_j, out_j)` with `in_j = j` (R28, R302). -/
def fixedTable : Vector (Byte × Byte) 256 := Vector.ofFn fun j => (BitVec.ofNat 8 j.val, sboxByte (BitVec.ofNat 8 j.val))

/-- The gates of the circuit: `+` is xor, `#` is xnor, `x` is and (R171). -/
inductive GateOp where
  | xor
  | xnor
  | and
deriving DecidableEq, Repr

/-- One gate `out = a op b`; signals are numbered by `sigU` to `sigS`. -/
structure Gate where
  out : Nat
  op : GateOp
  a : Nat
  b : Nat
deriving DecidableEq, Repr

/-- The signal number of the input `U_k`, k = 0 to 7 (R171). -/
def sigU (k : Nat) : Nat := k

/-- The signal number of `T_k`, k = 1 to 27. -/
def sigT (k : Nat) : Nat := 7 + k

/-- The signal number of `M_k`, k = 1 to 63. -/
def sigM (k : Nat) : Nat := 34 + k

/-- The signal number of `L_k`, k = 0 to 29. -/
def sigL (k : Nat) : Nat := 98 + k

/-- The signal number of the output `S_k`, k = 0 to 7. -/
def sigS (k : Nat) : Nat := 128 + k

/-- R171, the top linear layer: T1 to T27 (27 XOR). -/
def circuitTop : List Gate :=
  [
   ⟨sigT 1, .xor, sigU 0, sigU 3⟩, ⟨sigT 2, .xor, sigU 0, sigU 5⟩, ⟨sigT 3, .xor, sigU 0, sigU 6⟩,
   ⟨sigT 4, .xor, sigU 3, sigU 5⟩, ⟨sigT 5, .xor, sigU 4, sigU 6⟩, ⟨sigT 6, .xor, sigT 1, sigT 5⟩,
   ⟨sigT 7, .xor, sigU 1, sigU 2⟩, ⟨sigT 8, .xor, sigU 7, sigT 6⟩, ⟨sigT 9, .xor, sigU 7, sigT 7⟩,
   ⟨sigT 10, .xor, sigT 6, sigT 7⟩, ⟨sigT 11, .xor, sigU 1, sigU 5⟩, ⟨sigT 12, .xor, sigU 2, sigU 5⟩,
   ⟨sigT 13, .xor, sigT 3, sigT 4⟩, ⟨sigT 14, .xor, sigT 6, sigT 11⟩, ⟨sigT 15, .xor, sigT 5, sigT 11⟩,
   ⟨sigT 16, .xor, sigT 5, sigT 12⟩, ⟨sigT 17, .xor, sigT 9, sigT 16⟩, ⟨sigT 18, .xor, sigU 3, sigU 7⟩,
   ⟨sigT 19, .xor, sigT 7, sigT 18⟩, ⟨sigT 20, .xor, sigT 1, sigT 19⟩, ⟨sigT 21, .xor, sigU 6, sigU 7⟩,
   ⟨sigT 22, .xor, sigT 7, sigT 21⟩, ⟨sigT 23, .xor, sigT 2, sigT 22⟩, ⟨sigT 24, .xor, sigT 2, sigT 10⟩,
   ⟨sigT 25, .xor, sigT 20, sigT 17⟩, ⟨sigT 26, .xor, sigT 3, sigT 16⟩, ⟨sigT 27, .xor, sigT 1, sigT 12⟩]

/-- R171, the nonlinear middle layer, first part: M1 to M33. -/
def circuitMiddleA : List Gate :=
  [
   ⟨sigM 1, .and, sigT 13, sigT 6⟩, ⟨sigM 2, .and, sigT 23, sigT 8⟩, ⟨sigM 3, .xor, sigT 14, sigM 1⟩,
   ⟨sigM 4, .and, sigT 19, sigU 7⟩, ⟨sigM 5, .xor, sigM 4, sigM 1⟩, ⟨sigM 6, .and, sigT 3, sigT 16⟩,
   ⟨sigM 7, .and, sigT 22, sigT 9⟩, ⟨sigM 8, .xor, sigT 26, sigM 6⟩, ⟨sigM 9, .and, sigT 20, sigT 17⟩,
   ⟨sigM 10, .xor, sigM 9, sigM 6⟩, ⟨sigM 11, .and, sigT 1, sigT 15⟩, ⟨sigM 12, .and, sigT 4, sigT 27⟩,
   ⟨sigM 13, .xor, sigM 12, sigM 11⟩, ⟨sigM 14, .and, sigT 2, sigT 10⟩, ⟨sigM 15, .xor, sigM 14, sigM 11⟩,
   ⟨sigM 16, .xor, sigM 3, sigM 2⟩, ⟨sigM 17, .xor, sigM 5, sigT 24⟩, ⟨sigM 18, .xor, sigM 8, sigM 7⟩,
   ⟨sigM 19, .xor, sigM 10, sigM 15⟩, ⟨sigM 20, .xor, sigM 16, sigM 13⟩, ⟨sigM 21, .xor, sigM 17, sigM 15⟩,
   ⟨sigM 22, .xor, sigM 18, sigM 13⟩, ⟨sigM 23, .xor, sigM 19, sigT 25⟩, ⟨sigM 24, .xor, sigM 22, sigM 23⟩,
   ⟨sigM 25, .and, sigM 22, sigM 20⟩, ⟨sigM 26, .xor, sigM 21, sigM 25⟩, ⟨sigM 27, .xor, sigM 20, sigM 21⟩,
   ⟨sigM 28, .xor, sigM 23, sigM 25⟩, ⟨sigM 29, .and, sigM 28, sigM 27⟩, ⟨sigM 30, .and, sigM 26, sigM 24⟩,
   ⟨sigM 31, .and, sigM 20, sigM 23⟩, ⟨sigM 32, .and, sigM 27, sigM 31⟩, ⟨sigM 33, .xor, sigM 27, sigM 25⟩]

/-- R171, the nonlinear middle layer, second part: M34 to M63. -/
def circuitMiddleB : List Gate :=
  [
   ⟨sigM 34, .and, sigM 21, sigM 22⟩, ⟨sigM 35, .and, sigM 24, sigM 34⟩, ⟨sigM 36, .xor, sigM 24, sigM 25⟩,
   ⟨sigM 37, .xor, sigM 21, sigM 29⟩, ⟨sigM 38, .xor, sigM 32, sigM 33⟩, ⟨sigM 39, .xor, sigM 23, sigM 30⟩,
   ⟨sigM 40, .xor, sigM 35, sigM 36⟩, ⟨sigM 41, .xor, sigM 38, sigM 40⟩, ⟨sigM 42, .xor, sigM 37, sigM 39⟩,
   ⟨sigM 43, .xor, sigM 37, sigM 38⟩, ⟨sigM 44, .xor, sigM 39, sigM 40⟩, ⟨sigM 45, .xor, sigM 42, sigM 41⟩,
   ⟨sigM 46, .and, sigM 44, sigT 6⟩, ⟨sigM 47, .and, sigM 40, sigT 8⟩, ⟨sigM 48, .and, sigM 39, sigU 7⟩,
   ⟨sigM 49, .and, sigM 43, sigT 16⟩, ⟨sigM 50, .and, sigM 38, sigT 9⟩, ⟨sigM 51, .and, sigM 37, sigT 17⟩,
   ⟨sigM 52, .and, sigM 42, sigT 15⟩, ⟨sigM 53, .and, sigM 45, sigT 27⟩, ⟨sigM 54, .and, sigM 41, sigT 10⟩,
   ⟨sigM 55, .and, sigM 44, sigT 13⟩, ⟨sigM 56, .and, sigM 40, sigT 23⟩, ⟨sigM 57, .and, sigM 39, sigT 19⟩,
   ⟨sigM 58, .and, sigM 43, sigT 3⟩, ⟨sigM 59, .and, sigM 38, sigT 22⟩, ⟨sigM 60, .and, sigM 37, sigT 20⟩,
   ⟨sigM 61, .and, sigM 42, sigT 1⟩, ⟨sigM 62, .and, sigM 45, sigT 4⟩, ⟨sigM 63, .and, sigM 41, sigT 2⟩]

/-- R171, the bottom linear layer: L0 to L29, then the outputs S0 to S7 (34 XOR, 4 XNOR). -/
def circuitBottom : List Gate :=
  [
   ⟨sigL 0, .xor, sigM 61, sigM 62⟩, ⟨sigL 1, .xor, sigM 50, sigM 56⟩, ⟨sigL 2, .xor, sigM 46, sigM 48⟩,
   ⟨sigL 3, .xor, sigM 47, sigM 55⟩, ⟨sigL 4, .xor, sigM 54, sigM 58⟩, ⟨sigL 5, .xor, sigM 49, sigM 61⟩,
   ⟨sigL 6, .xor, sigM 62, sigL 5⟩, ⟨sigL 7, .xor, sigM 46, sigL 3⟩, ⟨sigL 8, .xor, sigM 51, sigM 59⟩,
   ⟨sigL 9, .xor, sigM 52, sigM 53⟩, ⟨sigL 10, .xor, sigM 53, sigL 4⟩, ⟨sigL 11, .xor, sigM 60, sigL 2⟩,
   ⟨sigL 12, .xor, sigM 48, sigM 51⟩, ⟨sigL 13, .xor, sigM 50, sigL 0⟩, ⟨sigL 14, .xor, sigM 52, sigM 61⟩,
   ⟨sigL 15, .xor, sigM 55, sigL 1⟩, ⟨sigL 16, .xor, sigM 56, sigL 0⟩, ⟨sigL 17, .xor, sigM 57, sigL 1⟩,
   ⟨sigL 18, .xor, sigM 58, sigL 8⟩, ⟨sigL 19, .xor, sigM 63, sigL 4⟩, ⟨sigL 20, .xor, sigL 0, sigL 1⟩,
   ⟨sigL 21, .xor, sigL 1, sigL 7⟩, ⟨sigL 22, .xor, sigL 3, sigL 12⟩, ⟨sigL 23, .xor, sigL 18, sigL 2⟩,
   ⟨sigL 24, .xor, sigL 15, sigL 9⟩, ⟨sigL 25, .xor, sigL 6, sigL 10⟩, ⟨sigL 26, .xor, sigL 7, sigL 9⟩,
   ⟨sigL 27, .xor, sigL 8, sigL 10⟩, ⟨sigL 28, .xor, sigL 11, sigL 14⟩, ⟨sigL 29, .xor, sigL 11, sigL 17⟩,
   ⟨sigS 0, .xor, sigL 6, sigL 24⟩, ⟨sigS 1, .xnor, sigL 16, sigL 26⟩, ⟨sigS 2, .xnor, sigL 19, sigL 28⟩,
   ⟨sigS 3, .xor, sigL 6, sigL 21⟩, ⟨sigS 4, .xor, sigL 20, sigL 22⟩, ⟨sigS 5, .xor, sigL 25, sigL 29⟩,
   ⟨sigS 6, .xnor, sigL 13, sigL 27⟩, ⟨sigS 7, .xnor, sigL 6, sigL 23⟩]

/-- The gate list of R171, in its order: 128 gates. -/
def sboxCircuit : List Gate := circuitTop ++ circuitMiddleA ++ circuitMiddleB ++ circuitBottom

/-- The `k`-th element of a list of wires. -/
def wire {α : Type} (d : α) : List α → Nat → α
  | [], _ => d
  | x :: _, 0 => x
  | _ :: xs, k + 1 => wire d xs k

/-- Runs a straight-line list of gates over wires held newest first, so that signal `k` of the wires before gate `out` is
the `(out - 1 - k)`-th. `gate op n a b` is the meaning of the gate whose output is signal `n`. -/
def runGates {α : Type} (gate : GateOp → Nat → α → α → α) (d : α) : List Gate → List α → List α
  | [], wires => wires
  | g :: gs, wires =>
    runGates gate d gs (gate g.op g.out (wire d wires (g.out - 1 - g.a)) (wire d wires (g.out - 1 - g.b)) :: wires)

/-- The circuit on a byte given as its bits 0 to 7. `U_k` is bit `7 - k` and `S_k` is bit `7 - k` of the result (R62), so
both ends stand bit 0 first when the wires are held newest first. -/
def runSboxCircuit {α : Type} (gate : GateOp → Nat → α → α → α) (d : α) (x : Vector α 8) : Vector α 8 :=
  let wires := runGates gate d sboxCircuit [x[0], x[1], x[2], x[3], x[4], x[5], x[6], x[7]]
  Vector.ofFn fun k => wire d wires k.val

end Sys2Proof.Machine
end

