-- ==== Sys2Proof/Machine/State.lean ====
section
/-! DEFINITION. The state of the block (10_state.md), its responses (R95) and error codes (R301), what the host presents
at its inputs (R90, R320, R340), and the state right after reset (R37). -/

namespace Sys2Proof.Machine

/-- The error codes 1 to 13 of R301, in order. -/
inductive ErrCode where
  | tableMalformed
  | sizeBlock
  | sizeSchedule
  | roundRange
  | decryptMismatch
  | gateFail
  | illegalCmd
  | notLoaded
  | noEvalKey
  | indexRange
  | noSecretKey
  | immutable
  | sizeList
deriving DecidableEq, Repr

/-- The data of a response with code OK (R95). -/
inductive RespData where
  /-- No data. -/
  | empty
  /-- The 16 beats of ST.ST.A or ST.OUT.A. -/
  | blockA (b : Block CtA)
  /-- The 16 beats of ST.ST.B or ST.OUT.B. -/
  | blockB (b : Block BvByte)
  /-- The cleartext byte of DECRYPT.B. -/
  | byte (v : Byte)
  /-- The 32-bit word of RDSTAT. -/
  | word (w : Word)
deriving DecidableEq, Repr

/-- The response that ends a command: code 0 with its data, or a nonzero code and no data (R95). -/
inductive Response where
  | ok (data : RespData)
  | error (code : ErrCode)
deriving DecidableEq, Repr

/-- What the outside world does to the block next. -/
inductive HostInput where
  /-- A command word with its payload (R90), and the environment's choice whether a primitive evaluation fails while the
  command runs (PRIMFAIL, R320). -/
  | command (word : Word) (payload : List Beat) (primfail : Bool)
  /-- The hardware reset input (R340a): `running` is the command it arrives in, none when the block is idle. -/
  | hardwareReset (running : Option (Word × List Beat))
deriving DecidableEq, Repr

/-- A storage array of NBLK_MAX entries (R24 to R26), held as (index, entry) pairs with rising indices, less the entries
that hold what an unlisted index reads as. -/
abbrev Memory (α : Type) := List (Nat × α)

/-- The state both engines have, over the element type of the engine's storage (R20 to R25, R29, R30). -/
structure Engine (α : Type) where
  /-- `ST.e`, the working block, and its flag (R21). -/
  st : Block α
  stv : Bool
  /-- `IV.e`, the base IV, and its flag (R22). -/
  iv : Block α
  ivv : Bool
  /-- `RK.e`, the round-key schedule, and its flag (R23). -/
  rk : Schedule α
  rkv : Bool
  /-- `PT.e`, the input blocks, and their flags (R24). -/
  pt : Memory (Block α)
  ptv : Memory Bool
  /-- `OUT.e`, the output blocks, and `OUTN.e`, how many are valid (R25). -/
  out : Memory (Block α)
  outn : Nat
  /-- `EKV.e`: an evaluation key is attached (R29). -/
  ekv : Bool
  /-- `WRAP.e` (R225). -/
  wrap : Bool
  /-- `ERR.e` and `ERRCODE.e`, the sticky first error (R31). -/
  err : Bool
  errcode : Byte
deriving DecidableEq, Repr

/-- The state only engine B has (R26, R27, R29). -/
structure BoolStore where
  /-- `CMLO.B` and `CMHI.B`, the counter material, and the loaded lengths (R26). -/
  cmlo : Memory BvByte
  cmlon : Nat
  cmhi : Memory BvByte
  cmhin : Nat
  /-- `KF.B` and `KT.B`, the constants, and their flag (R27). -/
  kf : CtB
  kt : CtB
  kv : Bool
  /-- `SKV.B`: the secret key is attached (R29). -/
  skv : Bool
deriving DecidableEq, Repr

/-- The state of the block. The last five fields are the model's own: what the host will present, the payload and
PRIMFAIL input of the command in progress, the response port, and the number of evaluating commands so far. -/
structure State where
  /-- Engine A (R20). -/
  a : Engine CtA
  /-- Engine B (R20) and the state only it has. -/
  b : Engine BvByte
  bx : BoolStore
  /-- `SBOX`, shared, 256 pairs (R28). -/
  sbox : Vector (Byte × Byte) 256
  /-- `TBLOK`, shared (R28, R341). -/
  tblok : Bool
  /-- NBLK_MAX, the implementation's parameter; no step changes it (R4, assumption 1). -/
  cap : Capacity
  /-- What the host presents next, in order (assumption 7). -/
  input : List HostInput
  /-- The payload of the command in progress; empty between commands (R94). -/
  payload : List Beat
  /-- PRIMFAIL of the command in progress; false between commands (R320). -/
  primfail : Bool
  /-- The last response; none right after a hardware reset (R95, assumption 8). -/
  response : Option Response
  /-- How many commands have evaluated primitives: names the free values of each (assumption 2). -/
  fresh : Nat
deriving DecidableEq, Repr

/-- Why a step would stop with a fault. There is no reason: the hardware never halts and every error is a response
(R300, R350), so no definition raises a fault and the type is empty. Safe: nothing is cut short. -/
inductive Fault where
deriving DecidableEq, Repr

/-- Why a step would refuse to give a meaning. -/
inductive Refusal where
  /-- Raised by an arm of `exec` for an instruction without a meaning; no arm is one now. Safe: the model stops. -/
  | notModelled (mnemonic : String)
deriving DecidableEq, Repr

/-- The outcome of a command or a step. -/
abbrev Result := Host.Outcome State Fault Refusal

/-- The ciphertext engine A's storage holds where nothing has been loaded (assumption 9). -/
def CtA.blank : CtA := ⟨0, 0⟩

/-- The ciphertext engine B's storage holds where nothing has been loaded (assumption 9). -/
def CtB.blank : CtB := ⟨false, false, 0⟩

/-- A BitVectorByte of blank ciphertexts (assumption 9). -/
def BvByte.blank : BvByte := Vector.replicate 8 CtB.blank

/-- What an unlisted block of PT.A or OUT.A reads as (assumption 9). -/
def blankBlockA : Block CtA := Vector.replicate 16 CtA.blank

/-- What an unlisted block of PT.B or OUT.B reads as (assumption 9). -/
def blankBlockB : Block BvByte := Vector.replicate 16 BvByte.blank

/-- An engine after reset whose storage holds `d` everywhere: every flag and count 0 (R37). -/
def Engine.atReset {α : Type} (d : α) : Engine α where
  st := Vector.replicate 16 d
  stv := false
  iv := Vector.replicate 16 d
  ivv := false
  rk := Vector.replicate 176 d
  rkv := false
  pt := []
  ptv := []
  out := []
  outn := 0
  ekv := false
  wrap := false
  err := false
  errcode := 0

/-- Engine B's own state after reset (R37). -/
def BoolStore.atReset : BoolStore where
  cmlo := []
  cmlon := 0
  cmhi := []
  cmhin := 0
  kf := CtB.blank
  kt := CtB.blank
  kv := false
  skv := false

/-- The block right after a hardware reset with nothing presented: R37, with the fixed table of R170, for which the
check of R341 gives TBLOK = 1. -/
def State.reset : State where
  a := Engine.atReset CtA.blank
  b := Engine.atReset BvByte.blank
  bx := BoolStore.atReset
  sbox := fixedTable
  tblok := true
  cap := Config.capacity
  input := []
  payload := []
  primfail := false
  response := none
  fresh := 0

end Sys2Proof.Machine
end

