-- ==== Sys2Proof/Machine/Flags.lean ====
section
/-! DEFINITION. The flag computations: the table check (R341), the sticky error pair (R31, R314), WRAP (R225), the
validity flags (R30, R34) and the status word (R32); the numbers of the error codes (R301). -/

namespace Sys2Proof.Machine

/-- The number of an error code (R301). -/
def ErrCode.number : ErrCode → Byte
  | .tableMalformed => 1
  | .sizeBlock => 2
  | .sizeSchedule => 3
  | .roundRange => 4
  | .decryptMismatch => 5
  | .gateFail => 6
  | .illegalCmd => 7
  | .notLoaded => 8
  | .noEvalKey => 9
  | .indexRange => 10
  | .noSecretKey => 11
  | .immutable => 12
  | .sizeList => 13

/-- The 8-bit code of a response: 0 = OK (R95, R301). -/
def Response.number : Response → Byte
  | .ok _ => 0
  | .error c => c.number

/-- Whether no two elements of a list are equal. -/
def pairwiseDistinct : List Byte → Bool
  | [] => true
  | x :: xs => !xs.contains x && pairwiseDistinct xs

/-- `table_check()` of R341: whether the 256 inputs of the table are pairwise distinct. It looks at inputs only. -/
def tableCheck (table : Vector (Byte × Byte) 256) : Bool := pairwiseDistinct (table.toList.map Prod.fst)

/-- An engine after a command of it responded with the nonzero code `c` (R314a): the first error since reset is kept
(R31). -/
def Engine.recordError {α : Type} (c : ErrCode) (e : Engine α) : Engine α :=
  if e.err then e else { e with err := true, errcode := c.number }

/-- WRAP.e after a CTR.e of `n` blocks that responds OK (R225). -/
def wrapAfter (wrap : Bool) (n : Nat) : Bool := wrap || decide (256 < n)

/-- ST.e holds no value any more: the destination of an in-place command after GateFail (R307). -/
def Engine.dropSt {α : Type} (e : Engine α) : Engine α := { e with stv := false }

/-- No OUT block holds a value any more: the destination of CTR after GateFail (R307). -/
def Engine.dropOut {α : Type} (e : Engine α) : Engine α := { e with outn := 0 }

/-- The status word of an engine from its fields, bit 31 first (R32). `skv` and `kv` are 0 on engine A. -/
def statusWord {α : Type} (eng skv kv tblok : Bool) (e : Engine α) : Word :=
  BitVec.ofBool eng ++ (0 : BitVec 7) ++ e.errcode ++ (0 : BitVec 7) ++ BitVec.ofBool e.err ++ BitVec.ofBool e.wrap ++
    BitVec.ofBool kv ++ BitVec.ofBool e.stv ++ BitVec.ofBool e.ivv ++ BitVec.ofBool e.rkv ++ BitVec.ofBool skv ++
    BitVec.ofBool e.ekv ++ BitVec.ofBool tblok

/-- `STATUS.A` (R32). -/
def State.statusA (s : State) : Word := statusWord false false false s.tblok s.a

/-- `STATUS.B` (R32). -/
def State.statusB (s : State) : Word := statusWord true s.bx.skv s.bx.kv s.tblok s.b

/-- An engine after a reset: its flags and counts 0, its contents not changed and not readable (R37, R341). -/
def Engine.reset {α : Type} (e : Engine α) : Engine α :=
  { e with
    stv := false
    ivv := false
    rkv := false
    ptv := []
    outn := 0
    ekv := false
    wrap := false
    err := false
    errcode := 0 }

/-- Engine B's own state after a reset: its flags and counts 0, its contents not changed and not readable (R37, R341). -/
def BoolStore.reset (x : BoolStore) : BoolStore := { x with cmlon := 0, cmhin := 0, kv := false, skv := false }

end Sys2Proof.Machine
end

