-- ==== Sys2Proof/Machine/Operands.lean ====
section
/-! DEFINITION. The operands of the commands: denoted values (R5), the storage arrays and their slots (R60), the beats of
a payload (R63), and the index computations of a block (R11, R61, R64, R134, R220). -/

namespace Sys2Proof.Machine

/-- `val` of a BitVectorByte: the sum over `k` of `val(v[k]) * 2^k` (R5). -/
def BvByte.val (v : BvByte) : Byte := BitVec.ofFnLE fun k => v[k].val

/-- The bytes that an array of engine A denotes (R5). -/
def denoteA {n : Nat} (b : Vector CtA n) : Vector Byte n := Vector.ofFn fun i => b[i].val

/-- The bytes that an array of engine B denotes (R5). -/
def denoteB {n : Nat} (b : Vector BvByte n) : Vector Byte n := Vector.ofFn fun i => BvByte.val b[i]

/-- The entry at index `i`; an unlisted index reads as `d`. -/
def Memory.read {α : Type} (d : α) : Memory α → Nat → α
  | [], _ => d
  | (j, v) :: m, i => if i = j then v else Memory.read d m i

/-- The list with the entry at `i` replaced by `v`, in rising order, without any entry when `v` is `d`. -/
def Memory.write {α : Type} [DecidableEq α] (d : α) : Memory α → Nat → α → Memory α
  | [], i, v => if v = d then [] else [(i, v)]
  | (j, w) :: m, i, v =>
    if i < j then (if v = d then (j, w) :: m else (i, v) :: (j, w) :: m)
    else if i = j then (if v = d then m else (i, v) :: m)
    else (j, w) :: Memory.write d m i v

/-- Writes `f 0`, …, `f (n - 1)` at the indices 0 to n - 1. -/
def Memory.fill {α : Type} [DecidableEq α] (d : α) (m : Memory α) (n : Nat) (f : Nat → α) : Memory α :=
  (List.range n).foldl (fun m i => Memory.write d m i (f i)) m

/-- Whether a storage array is in canonical form: indices strictly rising, no entry equal to `d`. -/
abbrev Memory.wf {α : Type} [DecidableEq α] (d : α) (m : Memory α) : Prop :=
  (m.map Prod.fst).Pairwise (· < ·) ∧ ∀ e ∈ m, e.2 ≠ d

/-- `PT.A[i]` (R24). -/
def State.ptA (s : State) (i : Nat) : Block CtA := Memory.read blankBlockA s.a.pt i

/-- `PT.B[i]` (R24). -/
def State.ptB (s : State) (i : Nat) : Block BvByte := Memory.read blankBlockB s.b.pt i

/-- `OUT.A[i]` (R25). -/
def State.outA (s : State) (i : Nat) : Block CtA := Memory.read blankBlockA s.a.out i

/-- `OUT.B[i]` (R25). -/
def State.outB (s : State) (i : Nat) : Block BvByte := Memory.read blankBlockB s.b.out i

/-- `CMLO.B[i]` (R26). -/
def State.cmlo (s : State) (i : Nat) : BvByte := Memory.read BvByte.blank s.bx.cmlo i

/-- `CMHI.B[i]` (R26). -/
def State.cmhi (s : State) (i : Nat) : BvByte := Memory.read BvByte.blank s.bx.cmhi i

/-- `PTV.e[i]` (R24). -/
def Engine.ptValid {α : Type} (e : Engine α) (i : Nat) : Bool := Memory.read false e.ptv i

/-- Whether `PTV.e[i] = 1` for every `i < n` (R222 check 3, R223 check 4). -/
def Engine.ptLoaded {α : Type} (e : Engine α) (n : Nat) : Bool := (List.range n).all fun i => e.ptValid i

/-- The storage spaces with slots that hold ciphertexts (R60). -/
inductive Space where
  | st
  | iv
  | rk
  | pt
  | out
  | cmlo
  | cmhi
  | konst
deriving DecidableEq, Repr

/-- The SEL code of a space (R60, R92). -/
def Space.code : Space → Nat
  | .st => 0
  | .iv => 1
  | .rk => 2
  | .pt => 3
  | .out => 4
  | .cmlo => 5
  | .cmhi => 6
  | .konst => 7

/-- Slot `i` of an array of `n` blocks: slot `i mod 16` of block `i div 16` (R60); none outside the size. -/
def blockSlot {α : Type} (n : Nat) (block : Nat → Block α) (i : Nat) : Option α :=
  if i < 16 * n then (block (i / 16))[i % 16]? else none

/-- `MemRead(space, i)` on engine A: the content of slot `i`, none where engine A has no such slot (R60). -/
def State.memReadA (s : State) : Space → Nat → Option CtA
  | .st, i => s.a.st[i]?
  | .iv, i => s.a.iv[i]?
  | .rk, i => s.a.rk[i]?
  | .pt, i => blockSlot s.cap.blocks s.ptA i
  | .out, i => blockSlot s.cap.blocks s.outA i
  | .cmlo, _ => none
  | .cmhi, _ => none
  | .konst, _ => none

/-- `MemRead(space, i)` on engine B, for the spaces of BitVectorBytes (R60). -/
def State.memReadB (s : State) : Space → Nat → Option BvByte
  | .st, i => s.b.st[i]?
  | .iv, i => s.b.iv[i]?
  | .rk, i => s.b.rk[i]?
  | .pt, i => blockSlot s.cap.blocks s.ptB i
  | .out, i => blockSlot s.cap.blocks s.outB i
  | .cmlo, i => if i < s.cap.blocks then some (s.cmlo i) else none
  | .cmhi, i => if i < s.cap.blocks then some (s.cmhi i) else none
  | .konst, _ => none

/-- `MemRead(KONST, i)`: slot 0 = KF, slot 1 = KT, each one boolean ciphertext (R60). -/
def State.memReadKonst (s : State) : Nat → Option CtB
  | 0 => some s.bx.kf
  | 1 => some s.bx.kt
  | _ => none

/-- A beat as engine A takes it: an ArithmeticByte (R63; any other beat: assumption 6). -/
def Beat.toArith : Beat → CtA
  | .arith c => c
  | .bits v => Config.misreadArith (.bits v)
  | .bit c => Config.misreadArith (.bit c)

/-- A beat as engine B takes it: a BitVectorByte (R63; any other beat: assumption 6). -/
def Beat.toBits : Beat → BvByte
  | .bits v => v
  | .arith c => Config.misreadBits (.arith c)
  | .bit c => Config.misreadBits (.bit c)

/-- A beat as LD.KONST.B takes it: one boolean ciphertext (R63; any other beat: assumption 6). -/
def Beat.toBit : Beat → CtB
  | .bit c => c
  | .arith c => Config.misreadBit (.arith c)
  | .bits v => Config.misreadBit (.bits v)

/-- The number of beats of the payload of the command in progress (R94). -/
def State.beats (s : State) : Nat := s.payload.length

/-- Beat `k` of the payload on engine A. A load reads it only below `beats`. -/
def State.beatA (s : State) (k : Nat) : CtA := (s.payload[k]?.map Beat.toArith).getD CtA.blank

/-- Beat `k` of the payload on engine B. A load reads it only below `beats`. -/
def State.beatB (s : State) (k : Nat) : BvByte := (s.payload[k]?.map Beat.toBits).getD BvByte.blank

/-- Beat `k` of the payload of LD.KONST.B. The load reads it only below `beats`. -/
def State.beatBit (s : State) (k : Nat) : CtB := (s.payload[k]?.map Beat.toBit).getD CtB.blank

/-- Beats 0 to n - 1 in slots 0 to n - 1 (R63), on engine A. -/
def State.beatsA (s : State) (n : Nat) : Vector CtA n := Vector.ofFn fun k => s.beatA k.val

/-- Beats 0 to n - 1 in slots 0 to n - 1 (R63), on engine B. -/
def State.beatsB (s : State) (n : Nat) : Vector BvByte n := Vector.ofFn fun k => s.beatB k.val

/-- Byte `i` of round key `t`: `RK.e[16*t + i]` (R23, R64). -/
def roundKeyByte {α : Type} (rk : Schedule α) (t : Fin 11) (i : Fin 16) : α :=
  rk[16 * t.val + i.val]'(by omega)

/-- Column `c` of a block: slots `4c` to `4c+3`, rows 0 to 3 (R61). -/
def column {α : Type} (b : Block α) (c : Fin 4) : Vector α 4 := Vector.ofFn fun r => b[r.val + 4 * c.val]'(by omega)

/-- The block whose columns 0 to 3 are given (R61). -/
def ofColumns {α : Type} (cols : Fin 4 → Vector α 4) : Block α :=
  Vector.ofFn fun j => (cols ⟨j.val / 4, by omega⟩)[j.val % 4]'(by omega)

/-- `SR[j]` of R134: with `r = j mod 4` and `c = j div 4`, the slot `r + 4*((c + r) mod 4)`. -/
def shiftRowsIndex (j : Fin 16) : Fin 16 := ⟨j.val % 4 + 4 * ((j.val / 4 + j.val % 4) % 4), by omega⟩

/-- The low counter nibble `i & 0xF` of block `i` as a byte (R220, R231). -/
def counterLow (i : Nat) : Byte := BitVec.ofNat 8 (i % 16)

/-- The high counter nibble `(i >> 4) & 0xF` of block `i` as a byte (R220, R231). -/
def counterHigh (i : Nat) : Byte := BitVec.ofNat 8 (i / 16 % 16)

/-- A copy of a base IV with the counter bytes overwritten: slot 15 by `lo`, slot 14 by `hi` (R220, R221). -/
def withCounter {α : Type} (iv : Block α) (lo hi : α) : Block α :=
  Vector.ofFn fun j => if j.val = 15 then lo else if j.val = 14 then hi else iv[j]

end Sys2Proof.Machine
end

