-- ==== Sys2Proof/Machine/Primitives.lean ====
section
/-! DEFINITION. The primitives of the trusted layer by the laws of their denoted values (R7, R8, R120 to R125, R160 to
R166), each taking the ticket that names its free part, and the units built from them: the doublings (R126, R168), the
column function (R127, R169) and the S-box circuit (R171). -/

namespace Sys2Proof.Machine

/-- The ciphertext of engine A that the evaluation `p` makes: its law fixes the denoted byte and nothing else (R5). -/
def freshA (p : Ticket) (v : Byte) : CtA := ⟨v, Config.freeRest p⟩

/-- The boolean ciphertext that the gate `p` makes: its law fixes the denoted bit and nothing else (R5, R36). -/
def freshB (p : Ticket) (v : Bool) : CtB := ⟨v, Config.freeTriv p, Config.freeRest p⟩

/-- `A.xor` (R120). -/
def arithXor (p : Ticket) (a b : CtA) : CtA := freshA p (a.val ^^^ b.val)

/-- `A.shl1`: `(2 * val(a)) mod 256` (R121). -/
def arithShl1 (p : Ticket) (a : CtA) : CtA := freshA p (BitVec.ofNat 8 (2 * a.val.toNat % 256))

/-- `A.top`: `val(a) div 128` (R122). -/
def arithTop (p : Ticket) (a : CtA) : CtA := freshA p (BitVec.ofNat 8 (a.val.toNat / 128))

/-- `A.cmul(b, k)`: `val(b) * k` for `val(b)` in {0,1} (R123); above 1 the product is free (assumption 4). -/
def arithCmul (p : Ticket) (b : CtA) (k : Byte) : CtA :=
  freshA p (if b.val = 0 then 0 else if b.val = 1 then k else Config.freeProduct b.val k)

/-- `SBOX[x]`: the `out_j` of the pair with `in_j = x` (R28); free where the table has no such pair (assumption 5). -/
def tableLookup (table : Vector (Byte × Byte) 256) (x : Byte) : Byte :=
  match table.toList.find? fun e => e.1 == x with
  | some e => e.2
  | none => Config.freeLookup x

/-- `A.lookup(a, SBOX)` (R124). -/
def arithLookup (p : Ticket) (table : Vector (Byte × Byte) 256) (a : CtA) : CtA := freshA p (tableLookup table a.val)

/-- `A.triv(k)`, a trivial encryption (R125). -/
def arithTriv (p : Ticket) (k : Byte) : CtA := freshA p k

/-- `B.xor` (R160). -/
def boolXor (p : Ticket) (a b : CtB) : CtB := freshB p (Bool.xor a.val b.val)

/-- `B.xnor` (R161). -/
def boolXnor (p : Ticket) (a b : CtB) : CtB := freshB p (!Bool.xor a.val b.val)

/-- `B.and` (R162). -/
def boolAnd (p : Ticket) (a b : CtB) : CtB := freshB p (a.val && b.val)

/-- `B.mux(c, a, b)`: `a` if `c` is 1, else `b` (R163). -/
def boolMux (p : Ticket) (c a b : CtB) : CtB := freshB p (if c.val then a.val else b.val)

/-- The `w` of `B.shl1(v, inj)`: `w[0] = inj`, `w[k] = v[k-1]`; handles move, nothing is evaluated (R164). -/
def boolShl1 (v : BvByte) (inj : CtB) : BvByte :=
  Vector.ofFn fun k => if k.val = 0 then inj else v[k.val - 1]

/-- The `top` of `B.shl1(v, inj)`: `v[7]` (R164). -/
def boolTop (v : BvByte) : CtB := v[7]

/-- `xor8`, eight independent gates (R166). -/
def xor8 (p : Ticket) (x y : BvByte) : BvByte := Vector.ofFn fun k => boolXor (k.val :: p) x[k] y[k]

/-- `double_A` (R126). -/
def doubleA (p : Ticket) (x : CtA) : CtA :=
  let s := arithShl1 (0 :: p) x
  let h := arithTop (1 :: p) x
  let m := arithCmul (2 :: p) h 0x1B
  arithXor (3 :: p) s m

/-- `C00`: eight times KF (R167). -/
def constFalse (kf : CtB) : BvByte := Vector.replicate 8 kf

/-- `C1B`: KT at the bits 0, 1, 3, 4 and KF at 2, 5, 6, 7 (R167). -/
def const1B (kf kt : CtB) : BvByte := #v[kt, kt, kf, kt, kt, kf, kf, kf]

/-- `double_B` (R168), with the loaded constants. -/
def doubleB (kf kt : CtB) (p : Ticket) (x : BvByte) : BvByte :=
  let shifted := boolShl1 x kf
  let h := boolTop x
  Vector.ofFn fun k =>
    boolXor (1 :: k.val :: p) shifted[k] (boolMux (0 :: k.val :: p) h (const1B kf kt)[k] (constFalse kf)[k])

/-- The column function of R127 over an engine's XOR and doubling (R169: "the identical MDS formula"):
`out[k] = double(b[k]) ^ b[(k+3)%4] ^ b[(k+2)%4] ^ double(b[(k+1)%4]) ^ b[(k+1)%4]`. Two points that 93 U16 leaves open are
the model's choice (assumption 22): the terms are combined from left to right, and the doubling that two outputs share is
evaluated at each use, so a column has 8 doublings. -/
def mixColumn {α : Type} (xor : Ticket → α → α → α) (double : Ticket → α → α) (p : Ticket) (b : Vector α 4) : Vector α 4 :=
  Vector.ofFn fun k =>
    let q := k.val :: p
    let t1 := xor (0 :: q) (double (1 :: q) b[k]) b[k + 3]
    let t2 := xor (2 :: q) t1 b[k + 2]
    let t3 := xor (3 :: q) t2 (double (4 :: q) b[k + 1])
    xor (5 :: q) t3 b[k + 1]

/-- `mixcol_A` (R127). -/
def mixColumnA (p : Ticket) (b : Vector CtA 4) : Vector CtA 4 := mixColumn arithXor doubleA p b

/-- `mixcol_B` (R169). -/
def mixColumnB (kf kt : CtB) (p : Ticket) (b : Vector BvByte 4) : Vector BvByte 4 := mixColumn xor8 (doubleB kf kt) p b

/-- A gate of the S-box circuit on boolean ciphertexts (R160 to R162, R171). -/
def circuitGate (p : Ticket) : GateOp → Nat → CtB → CtB → CtB
  | .xor, n, a, b => boolXor (n :: p) a b
  | .xnor, n, a, b => boolXnor (n :: p) a b
  | .and, n, a, b => boolAnd (n :: p) a b

/-- `sbox_B`, the gates of R171. -/
def sboxB (p : Ticket) (x : BvByte) : BvByte := runSboxCircuit (circuitGate p) CtB.blank x

end Sys2Proof.Machine
end

