-- ==== Sys2Proof/Machine/Ops.lean ====
section
/-! DEFINITION. The named operations every command is written from: writing storage, responding (R95), taking an error
(R314, the block's only kind of exception; there is no return from one, R315), running the checks in order (R313), the
shapes of a command, and the resets (R340, R341). -/

namespace Sys2Proof.Machine

/-- The state with engine A changed by `f`. -/
def State.onA (s : State) (f : Engine CtA → Engine CtA) : State := { s with a := f s.a }

/-- The state with engine B changed by `f`. -/
def State.onB (s : State) (f : Engine BvByte → Engine BvByte) : State := { s with b := f s.b }

/-- The state with engine B's own state changed by `f`. -/
def State.onBx (s : State) (f : BoolStore → BoolStore) : State := { s with bx := f s.bx }

/-- `ST.e <- blk` (R21). -/
def Engine.putSt {α : Type} (blk : Block α) (e : Engine α) : Engine α := { e with st := blk }

/-- `ST.e <- blk; STV.e <- 1` (R250). -/
def Engine.loadSt {α : Type} (blk : Block α) (e : Engine α) : Engine α := { e with st := blk, stv := true }

/-- `IV.e <- blk; IVV.e <- 1` (R251). -/
def Engine.loadIv {α : Type} (blk : Block α) (e : Engine α) : Engine α := { e with iv := blk, ivv := true }

/-- `RK.e <- sched; RKV.e <- 1` (R252). -/
def Engine.loadRk {α : Type} (sched : Schedule α) (e : Engine α) : Engine α := { e with rk := sched, rkv := true }

/-- `PT.e[idx] <- blk; PTV.e[idx] <- 1` (R253); `d` is what an unlisted block reads as. -/
def Engine.loadPt {α : Type} [DecidableEq α] (d : Block α) (idx : Nat) (blk : Block α) (e : Engine α) : Engine α :=
  { e with pt := Memory.write d e.pt idx blk, ptv := Memory.write false e.ptv idx true }

/-- `OUT.e[i] <- o i` for `i < n`, `OUTN.e <- n`, and WRAP.e (R222, R223, R225). -/
def Engine.putOut {α : Type} [DecidableEq α] (d : Block α) (n : Nat) (o : Nat → Block α) (e : Engine α) : Engine α :=
  { e with out := Memory.fill d e.out n o, outn := n, wrap := wrapAfter e.wrap n }

/-- `EKV.e <- 1` (R260). -/
def Engine.attachEk {α : Type} (e : Engine α) : Engine α := { e with ekv := true }

/-- The command in progress ends with a response (R95); the port is idle again and holds no payload (R69, R314e). -/
def State.respond (s : State) (r : Response) : State :=
  { s with response := some r, payload := [], primfail := false }

/-- ERR and ERRCODE of the engine of the command, updated for the code `c` (R314a). -/
def State.recordError (s : State) (e : EngineId) (c : ErrCode) : State :=
  match e with
  | .A => s.onA (Engine.recordError c)
  | .B => s.onB (Engine.recordError c)

/-- Taking an error: a command of engine `e` responds with the code `c` and changes nothing but the sticky pair (R314). -/
def State.raise (s : State) (e : EngineId) (c : ErrCode) : State := (s.recordError e c).respond (.error c)

/-- The first check that fails, its condition being true, in the order written (R313). -/
def firstError : List (Bool × ErrCode) → Option ErrCode
  | [] => none
  | (bad, c) :: rest => if bad then some c else firstError rest

/-- A command of engine `e` that evaluates no primitive: its checks in order, then its effect and an OK response with
`data` (R259, R300). -/
def runPlain (e : EngineId) (checks : List (Bool × ErrCode)) (effect : State → State) (data : RespData) (s : State) :
    Result :=
  match firstError checks with
  | some c => .next (s.raise e c)
  | none => .next ((effect s).respond (.ok data))

/-- A command of engine `e` that evaluates primitives when `work` holds: its checks in order; GateFail with the
destination invalidated by `drop` if a primitive fails (R307, R320); else its effect, which names the free values of its
results by the command's number. -/
def runEvaluating (e : EngineId) (checks : List (Bool × ErrCode)) (work : Bool) (drop : State → State)
    (effect : Ticket → State → State) (s : State) : Result :=
  match firstError checks with
  | some c => .next (s.raise e c)
  | none =>
    if work && s.primfail then .next ((drop s).raise e .gateFail)
    else .next (({ effect [s.fresh] s with fresh := s.fresh + 1 }).respond (.ok .empty))

/-- An illegal command word or payload: IllegalCmd, charged to the engine that bit 27 selects (R96, R309). -/
def illegalCommand (w : Word) (s : State) : State := s.raise (engineOf w) .illegalCmd

/-- RESET.A without its response: engine A takes its reset values and the table check is run again (R263, R341). -/
def State.resetA (s : State) : State := { s.onA Engine.reset with tblok := tableCheck s.sbox }

/-- RESET.B without its response: engine B takes its reset values and the table check is run again (R263, R341). -/
def State.resetB (s : State) : State :=
  { (s.onB Engine.reset).onBx BoolStore.reset with tblok := tableCheck s.sbox }

/-- The hardware reset input (R340a): both engines; a command in progress is abandoned without a response. -/
def State.hardwareReset (s : State) : State :=
  { s.resetA.resetB with payload := [], primfail := false, response := none }

end Sys2Proof.Machine
end

