-- ==== Sys2Proof/Machine/ArithEngine.lean ====
section
/-! DEFINITION. The round transforms of engine A as functions on a block, and the commands ADDRK.A, SUBB.A, SHROW.A and
MIXC.A (40_arith_engine.md). -/

namespace Sys2Proof.Machine

/-- AddRoundKey of round `t` on engine A (R130). -/
def addRoundKeyA (rk : Schedule CtA) (p : Ticket) (t : Fin 11) (b : Block CtA) : Block CtA :=
  Vector.ofFn fun i => arithXor (i.val :: p) b[i] (roundKeyByte rk t i)

/-- SubBytes on engine A: one oblivious lookup per byte (R131). -/
def subBytesA (table : Vector (Byte × Byte) 256) (p : Ticket) (b : Block CtA) : Block CtA :=
  Vector.ofFn fun i => arithLookup (i.val :: p) table b[i]

/-- ShiftRows, shared by both engines: `result[j] = block[SR[j]]`, the handles moved (R132, R134, R177). -/
def shiftRows {α : Type} (b : Block α) : Block α := Vector.ofFn fun j => b[shiftRowsIndex j]

/-- MixColumns on engine A (R133). -/
def mixColumnsA (p : Ticket) (b : Block CtA) : Block CtA := ofColumns fun c => mixColumnA (c.val :: p) (column b c)

/-- ADDRK.A t (R129, R130). After the checks `t ≤ 10`, so `Fin.ofNat 11 t` is `t`. -/
def execAddrkA (t : Nat) (s : State) : Result :=
  runEvaluating .A
    [(!s.tblok, .tableMalformed), (decide (10 < t), .roundRange), (!s.a.stv, .notLoaded), (!s.a.rkv, .notLoaded),
     (!s.a.ekv, .noEvalKey)]
    true (·.onA Engine.dropSt)
    (fun p s => s.onA (Engine.putSt (addRoundKeyA s.a.rk p (Fin.ofNat 11 t) s.a.st))) s

/-- SUBB.A (R129, R131). -/
def execSubbA (s : State) : Result :=
  runEvaluating .A
    [(!s.tblok, .tableMalformed), (!s.a.stv, .notLoaded), (!s.a.ekv, .noEvalKey)]
    true (·.onA Engine.dropSt)
    (fun p s => s.onA (Engine.putSt (subBytesA s.sbox p s.a.st))) s

/-- SHROW.A (R129, R132): it evaluates nothing, so it needs no evaluation key and ignores PRIMFAIL. -/
def execShrowA (s : State) : Result :=
  runPlain .A [(!s.tblok, .tableMalformed), (!s.a.stv, .notLoaded)]
    (fun s => s.onA (Engine.putSt (shiftRows s.a.st))) .empty s

/-- MIXC.A (R129, R133). -/
def execMixcA (s : State) : Result :=
  runEvaluating .A
    [(!s.tblok, .tableMalformed), (!s.a.stv, .notLoaded), (!s.a.ekv, .noEvalKey)]
    true (·.onA Engine.dropSt)
    (fun p s => s.onA (Engine.putSt (mixColumnsA p s.a.st))) s

end Sys2Proof.Machine
end

