-- ==== Sys2Proof/Machine/BoolEngine.lean ====
section
/-! DEFINITION. The round transforms of engine B as functions on a block, and the commands ADDRK.B, SUBB.B, SHROW.B,
MIXC.B and DECRYPT.B (41_bool_engine.md). -/

namespace Sys2Proof.Machine

/-- AddRoundKey of round `t` on engine B, bit `k` with bit `k` (R175). -/
def addRoundKeyB (rk : Schedule BvByte) (p : Ticket) (t : Fin 11) (b : Block BvByte) : Block BvByte :=
  Vector.ofFn fun i => xor8 (i.val :: p) b[i] (roundKeyByte rk t i)

/-- SubBytes on engine B: the circuit on each byte (R171, R176). -/
def subBytesB (p : Ticket) (b : Block BvByte) : Block BvByte := Vector.ofFn fun i => sboxB (i.val :: p) b[i]

/-- MixColumns on engine B (R178). -/
def mixColumnsB (kf kt : CtB) (p : Ticket) (b : Block BvByte) : Block BvByte :=
  ofColumns fun c => mixColumnB kf kt (c.val :: p) (column b c)

/-- ADDRK.B t (R129, R175). After the checks `t ≤ 10`, so `Fin.ofNat 11 t` is `t`. -/
def execAddrkB (t : Nat) (s : State) : Result :=
  runEvaluating .B
    [(!s.tblok, .tableMalformed), (decide (10 < t), .roundRange), (!s.b.stv, .notLoaded), (!s.b.rkv, .notLoaded),
     (!s.b.ekv, .noEvalKey)]
    true (·.onB Engine.dropSt)
    (fun p s => s.onB (Engine.putSt (addRoundKeyB s.b.rk p (Fin.ofNat 11 t) s.b.st))) s

/-- SUBB.B (R129, R176). -/
def execSubbB (s : State) : Result :=
  runEvaluating .B
    [(!s.tblok, .tableMalformed), (!s.b.stv, .notLoaded), (!s.b.ekv, .noEvalKey)]
    true (·.onB Engine.dropSt)
    (fun p s => s.onB (Engine.putSt (subBytesB p s.b.st))) s

/-- SHROW.B (R129, R177): it evaluates nothing, so it needs no evaluation key and ignores PRIMFAIL. -/
def execShrowB (s : State) : Result :=
  runPlain .B [(!s.tblok, .tableMalformed), (!s.b.stv, .notLoaded)]
    (fun s => s.onB (Engine.putSt (shiftRows s.b.st))) .empty s

/-- MIXC.B (R129, R178). -/
def execMixcB (s : State) : Result :=
  runEvaluating .B
    [(!s.tblok, .tableMalformed), (!s.b.stv, .notLoaded), (!s.bx.kv, .notLoaded), (!s.b.ekv, .noEvalKey)]
    true (·.onB Engine.dropSt)
    (fun p s => s.onB (Engine.putSt (mixColumnsB s.bx.kf s.bx.kt p s.b.st))) s

/-- Whether every bit of a byte is a trivial ciphertext (R182 mode 1). -/
def allTrivial (v : BvByte) : Bool := v.toList.all fun c => c.triv

/-- DECRYPT.B mode, idx (R182). After the checks `idx ≤ 15`, so `Fin.ofNat 16 idx` is `idx`. -/
def execDecryptB (mode : DecryptMode) (idx : Nat) (s : State) : Result :=
  let v := s.b.st[Fin.ofNat 16 idx]
  runPlain .B
    [(!s.tblok, .tableMalformed), (decide (15 < idx), .indexRange), (!s.b.stv, .notLoaded),
     (decide (mode = .secretKey) && !s.bx.skv, .noSecretKey),
     (decide (mode = .trivial) && !allTrivial v, .decryptMismatch)]
    id (.byte (BvByte.val v)) s

end Sys2Proof.Machine
end

