-- ==== Sys2Proof/Machine/BlockDriver.lean ====
section
/-! DEFINITION. The 10-round driver EncryptOneBlock of R200, "shared in structure by both engines, differing only in
which transform implementations are invoked", and the commands ENCBLK.A and ENCBLK.B (42_block_driver.md). -/

namespace Sys2Proof.Machine

/-- The transforms of one engine that evaluate primitives, as functions on a block. -/
structure Transforms (α : Type) where
  addRoundKey : Ticket → Fin 11 → Block α → Block α
  subBytes : Ticket → Block α → Block α
  mixColumns : Ticket → Block α → Block α

/-- Round `t` in 1 to 9: steps `4(t-1)+1` to `4(t-1)+4` of the table of R200. -/
def middleRound {α : Type} (f : Transforms α) (p : Ticket) (b : Block α) (t : Fin 11) : Block α :=
  let s := 4 * (t.val - 1)
  f.addRoundKey ((s + 4) :: p) t (f.mixColumns ((s + 3) :: p) (shiftRows (f.subBytes ((s + 1) :: p) b)))

/-- `enc` of R200: step `s` of its table has the ticket `s :: p`. -/
def encryptBlock {α : Type} (f : Transforms α) (p : Ticket) (b : Block α) : Block α :=
  let first := f.addRoundKey (0 :: p) 0 b
  let middle := ([1, 2, 3, 4, 5, 6, 7, 8, 9] : List (Fin 11)).foldl (middleRound f p) first
  f.addRoundKey (39 :: p) 10 (shiftRows (f.subBytes (37 :: p) middle))

/-- The transforms of engine A with its schedule and table (R201). -/
def State.transformsA (s : State) : Transforms CtA where
  addRoundKey := addRoundKeyA s.a.rk
  subBytes := subBytesA s.sbox
  mixColumns := mixColumnsA

/-- The transforms of engine B with its schedule and constants (R202). -/
def State.transformsB (s : State) : Transforms BvByte where
  addRoundKey := addRoundKeyB s.b.rk
  subBytes := subBytesB
  mixColumns := mixColumnsB s.bx.kf s.bx.kt

/-- ENCBLK.A (R129, R201). -/
def execEncblkA (s : State) : Result :=
  runEvaluating .A
    [(!s.tblok, .tableMalformed), (!s.a.stv, .notLoaded), (!s.a.rkv, .notLoaded), (!s.a.ekv, .noEvalKey)]
    true (·.onA Engine.dropSt)
    (fun p s => s.onA (Engine.putSt (encryptBlock s.transformsA p s.a.st))) s

/-- ENCBLK.B (R129, R202). -/
def execEncblkB (s : State) : Result :=
  runEvaluating .B
    [(!s.tblok, .tableMalformed), (!s.b.stv, .notLoaded), (!s.b.rkv, .notLoaded), (!s.bx.kv, .notLoaded),
     (!s.b.ekv, .noEvalKey)]
    true (·.onB Engine.dropSt)
    (fun p s => s.onB (Engine.putSt (encryptBlock s.transformsB p s.b.st))) s

end Sys2Proof.Machine
end

