-- ==== Sys2Proof/Machine/CtrComposer.lean ====
section
/-! DEFINITION. The CTR-mode composer: the modified IVs (R220, R221) and the commands CTR.A and CTR.B
(43_ctr_composer.md). -/

namespace Sys2Proof.Machine

/-- `miv_A(i)` (R220): tickets 0 and 1 are the two trivial encryptions. -/
def modifiedIvA (s : State) (p : Ticket) (i : Nat) : Block CtA :=
  withCounter s.a.iv (arithTriv (0 :: p) (counterLow i)) (arithTriv (1 :: p) (counterHigh i))

/-- `miv_B(i)` (R221). -/
def modifiedIvB (s : State) (i : Nat) : Block BvByte := withCounter s.b.iv (s.cmlo i) (s.cmhi i)

/-- The keystream block of block `i` on engine A: `enc_A(miv_A(i), RK.A)` (R222). -/
def keystreamA (s : State) (p : Ticket) (i : Nat) : Block CtA :=
  encryptBlock s.transformsA (2 :: i :: p) (modifiedIvA s (i :: p) i)

/-- The keystream block of block `i` on engine B: `enc_B(miv_B(i), RK.B)` (R223). -/
def keystreamB (s : State) (p : Ticket) (i : Nat) : Block BvByte :=
  encryptBlock s.transformsB (2 :: i :: p) (modifiedIvB s i)

/-- Output block `i` of CTR.A (R222). -/
def ctrBlockA (s : State) (p : Ticket) (i : Nat) : Block CtA :=
  let ks := keystreamA s p i
  Vector.ofFn fun j => arithXor (j.val :: 3 :: i :: p) ks[j] (s.ptA i)[j]

/-- Output block `i` of CTR.B (R223). -/
def ctrBlockB (s : State) (p : Ticket) (i : Nat) : Block BvByte :=
  let ks := keystreamB s p i
  Vector.ofFn fun j => xor8 (j.val :: 3 :: i :: p) ks[j] (s.ptB i)[j]

/-- CTR.A n (R222); with `n = 0` it evaluates nothing and cannot fail (R227). -/
def execCtrA (n : Nat) (s : State) : Result :=
  runEvaluating .A
    [(!s.tblok, .tableMalformed), (decide (s.cap.blocks < n), .indexRange), (!s.a.ivv, .notLoaded),
     (!s.a.rkv, .notLoaded), (!s.a.ptLoaded n, .notLoaded), (!s.a.ekv, .noEvalKey)]
    (decide (n ≠ 0)) (·.onA Engine.dropOut)
    (fun p s => s.onA (Engine.putOut blankBlockA n (ctrBlockA s p))) s

/-- CTR.B n (R223); with `n = 0` it evaluates nothing and cannot fail (R227). -/
def execCtrB (n : Nat) (s : State) : Result :=
  runEvaluating .B
    [(!s.tblok, .tableMalformed), (decide (s.cap.blocks < n), .indexRange), (decide (s.bx.cmlon < n), .sizeList),
     (decide (s.bx.cmhin < n), .sizeList), (!s.b.ivv, .notLoaded), (!s.b.rkv, .notLoaded), (!s.bx.kv, .notLoaded),
     (!s.b.ptLoaded n, .notLoaded), (!s.b.ekv, .noEvalKey)]
    (decide (n ≠ 0)) (·.onB Engine.dropOut)
    (fun p s => s.onB (Engine.putOut blankBlockB n (ctrBlockB s p))) s

end Sys2Proof.Machine
end

