-- ==== Sys2Proof/Machine/HostCommands.lean ====
section
/-! DEFINITION. The host commands: the loads LD, the stores ST, SETKEY, RDSTAT and RESET (44_host_commands.md). None
evaluates a primitive (R259). -/

namespace Sys2Proof.Machine

/-- The checks of LD.ST.e and LD.IV.e (R250, R251). -/
def loadBlockChecks (s : State) : List (Bool × ErrCode) :=
  [(!s.tblok, .tableMalformed), (decide (s.beats ≠ 16), .sizeBlock)]

/-- The checks of LD.RK.e with the flag RKV.e (R252). -/
def loadScheduleChecks (s : State) (rkv : Bool) : List (Bool × ErrCode) :=
  [(!s.tblok, .tableMalformed), (decide (s.beats ≠ 176), .sizeSchedule), (rkv, .immutable)]

/-- The checks of LD.PT.e idx (R253). -/
def loadPtChecks (s : State) (idx : Nat) : List (Bool × ErrCode) :=
  [(!s.tblok, .tableMalformed), (decide (s.cap.blocks ≤ idx), .indexRange), (decide (s.beats ≠ 16), .sizeBlock)]

/-- The checks of LD.CMLO.B and LD.CMHI.B (R254, R255). -/
def loadCounterChecks (s : State) : List (Bool × ErrCode) :=
  [(!s.tblok, .tableMalformed), (decide (s.cap.blocks < s.beats), .sizeList)]

/-- The checks of ST.OUT.e idx with OUTN.e (R258). -/
def storeOutChecks (s : State) (outn idx : Nat) : List (Bool × ErrCode) :=
  [(!s.tblok, .tableMalformed), (decide (s.cap.blocks ≤ idx), .indexRange), (decide (outn ≤ idx), .notLoaded)]

/-- LD.ST.A (R250). -/
def execLdStA (s : State) : Result :=
  runPlain .A (loadBlockChecks s) (fun s => s.onA (Engine.loadSt (s.beatsA 16))) .empty s

/-- LD.ST.B (R250). -/
def execLdStB (s : State) : Result :=
  runPlain .B (loadBlockChecks s) (fun s => s.onB (Engine.loadSt (s.beatsB 16))) .empty s

/-- LD.IV.A (R251). -/
def execLdIvA (s : State) : Result :=
  runPlain .A (loadBlockChecks s) (fun s => s.onA (Engine.loadIv (s.beatsA 16))) .empty s

/-- LD.IV.B (R251). -/
def execLdIvB (s : State) : Result :=
  runPlain .B (loadBlockChecks s) (fun s => s.onB (Engine.loadIv (s.beatsB 16))) .empty s

/-- LD.RK.A (R252). -/
def execLdRkA (s : State) : Result :=
  runPlain .A (loadScheduleChecks s s.a.rkv) (fun s => s.onA (Engine.loadRk (s.beatsA 176))) .empty s

/-- LD.RK.B (R252). -/
def execLdRkB (s : State) : Result :=
  runPlain .B (loadScheduleChecks s s.b.rkv) (fun s => s.onB (Engine.loadRk (s.beatsB 176))) .empty s

/-- LD.PT.A idx (R253). -/
def execLdPtA (idx : Nat) (s : State) : Result :=
  runPlain .A (loadPtChecks s idx) (fun s => s.onA (Engine.loadPt blankBlockA idx (s.beatsA 16))) .empty s

/-- LD.PT.B idx (R253). -/
def execLdPtB (idx : Nat) (s : State) : Result :=
  runPlain .B (loadPtChecks s idx) (fun s => s.onB (Engine.loadPt blankBlockB idx (s.beatsB 16))) .empty s

/-- LD.CMLO.B (R254): entries at or above the new length hold no value, whatever the list keeps there. -/
def execLdCmloB (s : State) : Result :=
  runPlain .B (loadCounterChecks s)
    (fun s => s.onBx fun x =>
      { x with cmlo := Memory.fill BvByte.blank x.cmlo s.beats s.beatB, cmlon := s.beats }) .empty s

/-- LD.CMHI.B (R255). -/
def execLdCmhiB (s : State) : Result :=
  runPlain .B (loadCounterChecks s)
    (fun s => s.onBx fun x =>
      { x with cmhi := Memory.fill BvByte.blank x.cmhi s.beats s.beatB, cmhin := s.beats }) .empty s

/-- LD.KONST.B: beat 0 is KF, beat 1 is KT (R256). -/
def execLdKonstB (s : State) : Result :=
  runPlain .B [(!s.tblok, .tableMalformed), (decide (s.beats ≠ 2), .sizeList)]
    (fun s => s.onBx fun x => { x with kf := s.beatBit 0, kt := s.beatBit 1, kv := true }) .empty s

/-- ST.ST.A (R257). -/
def execStStA (s : State) : Result :=
  runPlain .A [(!s.tblok, .tableMalformed), (!s.a.stv, .notLoaded)] id (.blockA s.a.st) s

/-- ST.ST.B (R257). -/
def execStStB (s : State) : Result :=
  runPlain .B [(!s.tblok, .tableMalformed), (!s.b.stv, .notLoaded)] id (.blockB s.b.st) s

/-- ST.OUT.A idx (R258). -/
def execStOutA (idx : Nat) (s : State) : Result := runPlain .A (storeOutChecks s s.a.outn idx) id (.blockA (s.outA idx)) s

/-- ST.OUT.B idx (R258). -/
def execStOutB (idx : Nat) (s : State) : Result := runPlain .B (storeOutChecks s s.b.outn idx) id (.blockB (s.outB idx)) s

/-- SETKEY.EK.A (R260). -/
def execSetkeyEkA (s : State) : Result :=
  runPlain .A [(!s.tblok, .tableMalformed), (s.a.ekv, .immutable)] (·.onA Engine.attachEk) .empty s

/-- SETKEY.EK.B (R260). -/
def execSetkeyEkB (s : State) : Result :=
  runPlain .B [(!s.tblok, .tableMalformed), (s.b.ekv, .immutable)] (·.onB Engine.attachEk) .empty s

/-- SETKEY.SK.B (R261). -/
def execSetkeySkB (s : State) : Result :=
  runPlain .B [(!s.tblok, .tableMalformed), (s.bx.skv, .immutable)]
    (fun s => s.onBx fun x => { x with skv := true }) .empty s

/-- RDSTAT.STATUS.A (R262): like every RDSTAT it has no checks and writes nothing. -/
def execRdstatStatusA (s : State) : Result := runPlain .A [] id (.word s.statusA) s

/-- RDSTAT.STATUS.B (R262). -/
def execRdstatStatusB (s : State) : Result := runPlain .B [] id (.word s.statusB) s

/-- RDSTAT.OUTN.A (R262). -/
def execRdstatOutnA (s : State) : Result := runPlain .A [] id (.word (BitVec.ofNat 32 s.a.outn)) s

/-- RDSTAT.OUTN.B (R262). -/
def execRdstatOutnB (s : State) : Result := runPlain .B [] id (.word (BitVec.ofNat 32 s.b.outn)) s

/-- RDSTAT.CMLON.B (R262). -/
def execRdstatCmlonB (s : State) : Result := runPlain .B [] id (.word (BitVec.ofNat 32 s.bx.cmlon)) s

/-- RDSTAT.CMHIN.B (R262). -/
def execRdstatCmhinB (s : State) : Result := runPlain .B [] id (.word (BitVec.ofNat 32 s.bx.cmhin)) s

/-- RDSTAT.CAP.A (R262). -/
def execRdstatCapA (s : State) : Result := runPlain .A [] id (.word (BitVec.ofNat 32 s.cap.blocks)) s

/-- RDSTAT.CAP.B (R262). -/
def execRdstatCapB (s : State) : Result := runPlain .B [] id (.word (BitVec.ofNat 32 s.cap.blocks)) s

/-- RESET.A (R263): no checks, and the response is OK even when the table check fails. -/
def execResetA (s : State) : Result := runPlain .A [] State.resetA .empty s

/-- RESET.B (R263). -/
def execResetB (s : State) : Result := runPlain .B [] State.resetB .empty s

end Sys2Proof.Machine
end

