-- ==== Sys2Proof/Machine/Dispatch.lean ====
section
/-! DEFINITION. The dispatch: one arm per command, each one call of its meaning. -/

namespace Sys2Proof.Machine

/-- What a command does at a state whose `payload` and `primfail` are those it was presented with. -/
def exec (i : Instr) (s : State) : Host.Outcome State Fault Refusal :=
  match i with
  | .addrkA t => Sys2Proof.Machine.execAddrkA t s
  | .addrkB t => Sys2Proof.Machine.execAddrkB t s
  | .subbA => Sys2Proof.Machine.execSubbA s
  | .subbB => Sys2Proof.Machine.execSubbB s
  | .shrowA => Sys2Proof.Machine.execShrowA s
  | .shrowB => Sys2Proof.Machine.execShrowB s
  | .mixcA => Sys2Proof.Machine.execMixcA s
  | .mixcB => Sys2Proof.Machine.execMixcB s
  | .encblkA => Sys2Proof.Machine.execEncblkA s
  | .encblkB => Sys2Proof.Machine.execEncblkB s
  | .ctrA n => Sys2Proof.Machine.execCtrA n s
  | .ctrB n => Sys2Proof.Machine.execCtrB n s
  | .ldStA => Sys2Proof.Machine.execLdStA s
  | .ldStB => Sys2Proof.Machine.execLdStB s
  | .ldIvA => Sys2Proof.Machine.execLdIvA s
  | .ldIvB => Sys2Proof.Machine.execLdIvB s
  | .ldRkA => Sys2Proof.Machine.execLdRkA s
  | .ldRkB => Sys2Proof.Machine.execLdRkB s
  | .ldPtA idx => Sys2Proof.Machine.execLdPtA idx s
  | .ldPtB idx => Sys2Proof.Machine.execLdPtB idx s
  | .ldCmloB => Sys2Proof.Machine.execLdCmloB s
  | .ldCmhiB => Sys2Proof.Machine.execLdCmhiB s
  | .ldKonstB => Sys2Proof.Machine.execLdKonstB s
  | .stStA => Sys2Proof.Machine.execStStA s
  | .stStB => Sys2Proof.Machine.execStStB s
  | .stOutA idx => Sys2Proof.Machine.execStOutA idx s
  | .stOutB idx => Sys2Proof.Machine.execStOutB idx s
  | .decryptB mode idx => Sys2Proof.Machine.execDecryptB mode idx s
  | .setkeyEkA => Sys2Proof.Machine.execSetkeyEkA s
  | .setkeyEkB => Sys2Proof.Machine.execSetkeyEkB s
  | .setkeySkB => Sys2Proof.Machine.execSetkeySkB s
  | .rdstatStatusA => Sys2Proof.Machine.execRdstatStatusA s
  | .rdstatStatusB => Sys2Proof.Machine.execRdstatStatusB s
  | .rdstatOutnA => Sys2Proof.Machine.execRdstatOutnA s
  | .rdstatOutnB => Sys2Proof.Machine.execRdstatOutnB s
  | .rdstatCmlonB => Sys2Proof.Machine.execRdstatCmlonB s
  | .rdstatCmhinB => Sys2Proof.Machine.execRdstatCmhinB s
  | .rdstatCapA => Sys2Proof.Machine.execRdstatCapA s
  | .rdstatCapB => Sys2Proof.Machine.execRdstatCapB s
  | .resetA => Sys2Proof.Machine.execResetA s
  | .resetB => Sys2Proof.Machine.execResetB s

end Sys2Proof.Machine
end

