-- ==== Sys2Proof/Machine/Step.lean ====
section
/-! DEFINITION. One step of the block: it takes the next thing the host presents (R69, R90, R340) and runs it. -/

namespace Sys2Proof.Machine

/-- The port holds a command: its payload and PRIMFAIL are latched while it runs, and `rest` comes after it. -/
def State.accept (s : State) (payload : List Beat) (primfail : Bool) (rest : List HostInput) : State :=
  { s with input := rest, payload := payload, primfail := primfail }

/-- One step. With nothing presented the state does not change (R350). A command runs whole, from its word to its
response (R69); a word that does not decode is IllegalCmd (R96). The hardware reset input resets both engines (R340a). -/
def step (s : State) : Host.Outcome State Fault Refusal :=
  match s.input with
  | [] => .next s
  | .hardwareReset _ :: rest => .next ({ s with input := rest }).hardwareReset
  | .command w payload primfail :: rest =>
    match decode w payload.length with
    | .ok i => exec i (s.accept payload primfail rest)
    | .error _ => .next (illegalCommand w (s.accept payload primfail rest))

/-- `s` with the instruction of `nbits` bits `w` as the next thing the host presents, without payload and without
PRIMFAIL: the next step runs it. -/
def State.withFetchWord (s : State) (nbits w : Nat) : State :=
  { s with input := .command (BitVec.ofNat 32 (w % 2 ^ nbits)) [] false :: s.input }

end Sys2Proof.Machine
end

