-- ==== Sys2Proof/Reference.lean ====
section
/-! DEFINITION. Cleartext AES-128 over bytes, against which statements hold the engines: the value laws of the transforms
(R126, R127, R130 to R134), the driver (R200), the key schedule (R206), the counter (R220), and the field arithmetic of
R126, R127 and R170. Nothing of the machine uses this file. -/

namespace Sys2Proof.Reference

open Sys2Proof.Machine (sboxByte)

/-- The value law of `double`: `((2*v) mod 256) ^ (0x1B * (v div 128))` (R126). -/
def double (v : Byte) : Byte := BitVec.ofNat 8 (2 * v.toNat % 256) ^^^ BitVec.ofNat 8 (0x1B * (v.toNat / 128))

/-- The product in GF(2^8) modulo x^8+x^4+x^3+x+1 (R126): the sum, over the bits of `a` that are set, of `b` doubled as
often as the bit's position says. -/
def gfMul (a b : Byte) : Byte :=
  (List.range 8).foldl (fun acc k => if a.getLsbD k then acc ^^^ (List.range k).foldl (fun x _ => double x) b else acc) 0

/-- The multiplicative inverse in GF(2^8), 0 for 0: the 254th power (R170 `inv`). -/
def gfInverse (x : Byte) : Byte :=
  let x2 := gfMul x x
  let x4 := gfMul x2 x2
  let x8 := gfMul x4 x4
  let x16 := gfMul x8 x8
  let x32 := gfMul x16 x16
  let x64 := gfMul x32 x32
  let x128 := gfMul x64 x64
  gfMul x128 (gfMul x64 (gfMul x32 (gfMul x16 (gfMul x8 (gfMul x4 x2)))))

/-- The affine map `A` of R170. -/
def affine (b : Byte) : Byte :=
  b ^^^ b.rotateLeft 1 ^^^ b.rotateLeft 2 ^^^ b.rotateLeft 3 ^^^ b.rotateLeft 4 ^^^ 0x63

/-- AddRoundKey on bytes (R130, R201): `b[i] ^ rk[16t+i]`. -/
def addRoundKey (rk : Vector Byte 176) (t : Fin 11) (b : Vector Byte 16) : Vector Byte 16 :=
  Vector.ofFn fun i => b[i] ^^^ rk[16 * t.val + i.val]'(by omega)

/-- SubBytes on bytes (R131, R201): `SBOX[b[i]]`. -/
def subBytes (b : Vector Byte 16) : Vector Byte 16 := Vector.ofFn fun i => sboxByte b[i]

/-- The table SR as R134 prints it. -/
def srTable : Vector (Fin 16) 16 := #v[0, 5, 10, 15, 4, 9, 14, 3, 8, 13, 2, 7, 12, 1, 6, 11]

/-- ShiftRows (R134, R201): `b[SR[j]]`. -/
def shiftRows {α : Type} (b : Vector α 16) : Vector α 16 := Vector.ofFn fun j => b[srTable[j]]

/-- The law of `double_B` bit by bit, whatever `f = val(KF.B)` and `t = val(KT.B)` are (R168): `s_0 = f`, `s_k` is bit
`k-1` of `x`, `c_k` is `t` for k in {0,1,3,4} and `f` otherwise, and bit `k` is `s_k ^ (c_k if bit 7 of x is 1 else f)`. -/
def doubleBits (f t : Bool) (x : Byte) : Byte :=
  BitVec.ofFnLE fun k : Fin 8 =>
    let s := if k.val = 0 then f else x.getLsbD (k.val - 1)
    let c := if k.val = 0 ∨ k.val = 1 ∨ k.val = 3 ∨ k.val = 4 then t else f
    Bool.xor s (if x.getLsbD 7 then c else f)

/-- One output byte of the column function, by the formula of R127 on the column that starts at slot `4c`, with the
doubling `dbl`. -/
def mixByte (dbl : Byte → Byte) (b : Vector Byte 16) (c k : Fin 4) : Byte :=
  let row : Fin 4 → Byte := fun r => b[4 * c.val + r.val]'(by omega)
  dbl (row k) ^^^ row (k + 3) ^^^ row (k + 2) ^^^ dbl (row (k + 1)) ^^^ row (k + 1)

/-- MixColumns on bytes (R133, R201), with the doubling `dbl`. -/
def mixColumns (dbl : Byte → Byte) (b : Vector Byte 16) : Vector Byte 16 :=
  Vector.ofFn fun j => mixByte dbl b ⟨j.val / 4, by omega⟩ ⟨j.val % 4, by omega⟩

/-- The factor that the column function gives `b[r]` in its output `k`, read off the formula of R127: `b[k]` is doubled,
`b[k+1]` is doubled and added once more, the other two are added once. -/
def mixFactor (k r : Fin 4) : Byte :=
  if r = k then 2
  else if r = k + 1 then 3
  else 1

/-- Row `k` of the matrix of R127, rows 2 3 1 1 / 1 2 3 1 / 1 1 2 3 / 3 1 1 2, times a column, in GF(2^8). -/
def mdsRow (b : Vector Byte 4) (k : Fin 4) : Byte :=
  gfMul (mixFactor k 0) b[0] ^^^ gfMul (mixFactor k 1) b[1] ^^^ gfMul (mixFactor k 2) b[2] ^^^ gfMul (mixFactor k 3) b[3]

/-- Rounds 1 to `t` of the loop of `enc` (R200), after AddRoundKey(0). -/
def rounds (dbl : Byte → Byte) (rk : Vector Byte 176) (b : Vector Byte 16) : Nat → Vector Byte 16
  | 0 => addRoundKey rk 0 b
  | t + 1 => addRoundKey rk (Fin.ofNat 11 (t + 1)) (mixColumns dbl (shiftRows (subBytes (rounds dbl rk b t))))

/-- `enc(b, rk)` of R200, with the doubling `dbl`. -/
def enc (dbl : Byte → Byte) (b : Vector Byte 16) (rk : Vector Byte 176) : Vector Byte 16 :=
  addRoundKey rk 10 (shiftRows (subBytes (rounds dbl rk b 9)))

/-- The round constants of R206. -/
def rcon : Vector Byte 10 := #v[1, 2, 4, 8, 16, 32, 64, 128, 27, 54]

/-- Word `i` of the expansion from the words before it, newest first: `w[i-1]` is the head and `w[i-4]` the fourth
(R206). -/
def nextWord (i : Nat) (ws : List (Vector Byte 4)) : Vector Byte 4 :=
  let prev := ws.getD 0 (Vector.replicate 4 0)
  let back := ws.getD 3 (Vector.replicate 4 0)
  if i % 4 = 0 then
    let t : Vector Byte 4 := #v[sboxByte prev[1], sboxByte prev[2], sboxByte prev[3], sboxByte prev[0]]
    #v[back[0] ^^^ t[0] ^^^ rcon[Fin.ofNat 10 (i / 4 - 1)], back[1] ^^^ t[1], back[2] ^^^ t[2], back[3] ^^^ t[3]]
  else Vector.ofFn fun j => back[j] ^^^ prev[j]

/-- The words `w[0]` to `w[n+3]`, newest first (R206). -/
def expandWords (key : Vector Byte 16) : Nat → List (Vector Byte 4)
  | 0 => [#v[key[12], key[13], key[14], key[15]], #v[key[8], key[9], key[10], key[11]],
          #v[key[4], key[5], key[6], key[7]], #v[key[0], key[1], key[2], key[3]]]
  | n + 1 => let ws := expandWords key n; nextWord (n + 4) ws :: ws

/-- `key_expansion(key)` of R206: byte `4i+j` is `w[i][j]`, and word `i` stands `43 - i` from the newest. -/
def keyExpansion (key : Vector Byte 16) : Vector Byte 176 :=
  let ws := expandWords key 40
  Vector.ofFn fun n => (ws.getD (43 - n.val / 4) (Vector.replicate 4 0))[n.val % 4]'(by omega)

/-- AES-128 encryption of block `block` under key `key`: `ReferenceAES(K, P)` of R205. -/
def aes128 (key block : Vector Byte 16) : Vector Byte 16 :=
  enc double block (keyExpansion key)

/-- A base IV with the bytes `lo` at offset 15 and `hi` at offset 14 (R220, R221). -/
def modifiedIv (iv : Vector Byte 16) (lo hi : Byte) : Vector Byte 16 :=
  Vector.ofFn fun j => if j.val = 14 then hi else if j.val = 15 then lo else iv[j]

/-- A block of CTR output as bytes: the keystream of the modified IV, XORed with the input block (R222, R223). -/
def ctrBlock (dbl : Byte → Byte) (miv : Vector Byte 16) (rk : Vector Byte 176) (pt : Vector Byte 16) : Vector Byte 16 :=
  Vector.ofFn fun j => (enc dbl miv rk)[j] ^^^ pt[j]

end Sys2Proof.Reference
end

