-- ==== Sys2Proof/Safety.lean ====
section
/-! DEFINITION. The words in which claims are stated: the invariant, the checks of each command as its rule lists them,
the host duties (R346), the states after a completed and after a failed command, and the relations between states that
the whole-machine claims compare. Nothing of the machine uses this file. -/

namespace Sys2Proof.Machine

/-! The invariant. -/

/-- Every index that an array lists is below NBLK_MAX (R24 to R26). -/
def Memory.within {α : Type} (n : Nat) (m : Memory α) : Prop := ∀ e ∈ m, e.1 < n

/-- The storage arrays of an engine are in canonical form and within the capacity, OUTN ≤ NBLK_MAX (R25), and the sticky
pair is 0 or the number of an error (R31, R301). -/
structure Engine.Inv {α : Type} [DecidableEq α] (d : Block α) (n : Nat) (e : Engine α) : Prop where
  pt_wf : Memory.wf d e.pt
  pt_within : Memory.within n e.pt
  ptv_wf : Memory.wf false e.ptv
  ptv_within : Memory.within n e.ptv
  out_wf : Memory.wf d e.out
  out_within : Memory.within n e.out
  outn_le : e.outn ≤ n
  no_error : e.err = false → e.errcode = 0
  error_number : e.err = true → ∃ c : ErrCode, e.errcode = c.number

/-- The counter lists are in canonical form and within the capacity, and so are their lengths (R26). -/
structure BoolStore.Inv (n : Nat) (x : BoolStore) : Prop where
  cmlo_wf : Memory.wf BvByte.blank x.cmlo
  cmlo_within : Memory.within n x.cmlo
  cmhi_wf : Memory.wf BvByte.blank x.cmhi
  cmhi_within : Memory.within n x.cmhi
  cmlon_le : x.cmlon ≤ n
  cmhin_le : x.cmhin ≤ n

/-- The invariant of the storage, which holds also while a command runs. TBLOK is the result of the table check (R28). -/
structure State.StorageInv (s : State) : Prop where
  engine_a : s.a.Inv blankBlockA s.cap.blocks
  engine_b : s.b.Inv blankBlockB s.cap.blocks
  store_b : s.bx.Inv s.cap.blocks
  tblok_eq : s.tblok = tableCheck s.sbox

/-- The invariant between commands: the port holds nothing of an earlier command (R36, R69). -/
structure State.Inv (s : State) : Prop where
  storage : s.StorageInv
  payload_empty : s.payload = []
  primfail_false : s.primfail = false

/-- The 256 inputs of the table are pairwise distinct (R302, R341). -/
def distinctInputs (table : Vector (Byte × Byte) 256) : Prop :=
  ∀ j k : Fin 256, j < k → table[j].1 ≠ table[k].1

/-! The checks of a command, as its rule lists them: the error of the first that fails. -/

/-- The checks common to the in-place commands (R129), in its numbered order. `badRound` is `t > 10` of ADDRK. -/
def inPlaceRefusal {α : Type} (s : State) (e : Engine α) (badRound needRk needKonst needEk : Bool) : Option ErrCode :=
  if s.tblok = false then some .tableMalformed
  else if badRound then some .roundRange
  else if e.stv = false ∨ (needRk ∧ e.rkv = false) ∨ (needKonst ∧ s.bx.kv = false) then some .notLoaded
  else if needEk ∧ e.ekv = false then some .noEvalKey
  else none

/-- The checks of CTR.A (R222), in its numbered order. -/
def ctrRefusalA (s : State) (n : Nat) : Option ErrCode :=
  if s.tblok = false then some .tableMalformed
  else if s.cap.blocks < n then some .indexRange
  else if s.a.ivv = false ∨ s.a.rkv = false ∨ ∃ i < n, s.a.ptValid i = false then some .notLoaded
  else if s.a.ekv = false then some .noEvalKey
  else none

/-- The checks of CTR.B (R223), in its numbered order. -/
def ctrRefusalB (s : State) (n : Nat) : Option ErrCode :=
  if s.tblok = false then some .tableMalformed
  else if s.cap.blocks < n then some .indexRange
  else if s.bx.cmlon < n ∨ s.bx.cmhin < n then some .sizeList
  else if s.b.ivv = false ∨ s.b.rkv = false ∨ s.bx.kv = false ∨ ∃ i < n, s.b.ptValid i = false then some .notLoaded
  else if s.b.ekv = false then some .noEvalKey
  else none

/-- The checks of DECRYPT.B (R182), in its order. -/
def decryptRefusal (s : State) (mode : DecryptMode) (idx : Nat) : Option ErrCode :=
  if s.tblok = false then some .tableMalformed
  else if 15 < idx then some .indexRange
  else if s.b.stv = false then some .notLoaded
  else if mode = .secretKey ∧ s.bx.skv = false then some .noSecretKey
  else if mode = .trivial ∧ ∃ k : Fin 8, ((s.b.st[Fin.ofNat 16 idx])[k]).triv = false then some .decryptMismatch
  else none

/-- The checks of LD.ST.e and LD.IV.e (R250, R251). -/
def loadBlockRefusal (s : State) : Option ErrCode :=
  if s.tblok = false then some .tableMalformed
  else if s.payload.length ≠ 16 then some .sizeBlock
  else none

/-- The checks of LD.RK.e (R252). -/
def loadScheduleRefusal (s : State) (rkv : Bool) : Option ErrCode :=
  if s.tblok = false then some .tableMalformed
  else if s.payload.length ≠ 176 then some .sizeSchedule
  else if rkv = true then some .immutable
  else none

/-- The checks of LD.PT.e (R253). -/
def loadPtRefusal (s : State) (idx : Nat) : Option ErrCode :=
  if s.tblok = false then some .tableMalformed
  else if s.cap.blocks ≤ idx then some .indexRange
  else if s.payload.length ≠ 16 then some .sizeBlock
  else none

/-- The checks of LD.CMLO.B and LD.CMHI.B (R254, R255). -/
def loadCounterRefusal (s : State) : Option ErrCode :=
  if s.tblok = false then some .tableMalformed
  else if s.cap.blocks < s.payload.length then some .sizeList
  else none

/-- The checks of LD.KONST.B (R256). -/
def loadKonstRefusal (s : State) : Option ErrCode :=
  if s.tblok = false then some .tableMalformed
  else if s.payload.length ≠ 2 then some .sizeList
  else none

/-- The checks of ST.ST.e (R257). -/
def storeStRefusal (s : State) (stv : Bool) : Option ErrCode :=
  if s.tblok = false then some .tableMalformed
  else if stv = false then some .notLoaded
  else none

/-- The checks of ST.OUT.e (R258). -/
def storeOutRefusal (s : State) (outn idx : Nat) : Option ErrCode :=
  if s.tblok = false then some .tableMalformed
  else if s.cap.blocks ≤ idx then some .indexRange
  else if outn ≤ idx then some .notLoaded
  else none

/-- The checks of SETKEY (R260, R261): `attached` is the flag the command sets. -/
def setkeyRefusal (s : State) (attached : Bool) : Option ErrCode :=
  if s.tblok = false then some .tableMalformed
  else if attached = true then some .immutable
  else none

/-! The states after a command. -/

/-- The state after a command that responded OK with `data` (R95): `s` carries its effect, and the port is idle (R69). -/
def State.completed (s : State) (data : RespData) : State :=
  { s with response := some (.ok data), payload := [], primfail := false }

/-- The state after a command of engine A that ended with the error `c` (R314): the sticky pair and the port. -/
def State.erredA (s : State) (c : ErrCode) : State :=
  { s with
    a := { s.a with err := true, errcode := if s.a.err then s.a.errcode else c.number }
    response := some (.error c)
    payload := []
    primfail := false }

/-- The state after a command of engine B that ended with the error `c` (R314): the sticky pair and the port. -/
def State.erredB (s : State) (c : ErrCode) : State :=
  { s with
    b := { s.b with err := true, errcode := if s.b.err then s.b.errcode else c.number }
    response := some (.error c)
    payload := []
    primfail := false }

/-- `erredA` or `erredB`, by the engine the command is charged to. -/
def State.erred (s : State) (e : EngineId) (c : ErrCode) : State :=
  match e with
  | .A => s.erredA c
  | .B => s.erredB c

/-! The host duties of R346. -/

/-- The table is the fixed one of R170. -/
def State.fixedSbox (s : State) : Prop := s.sbox = fixedTable

/-- H-KONST: `val(KF.B) = 0` and `val(KT.B) = 1`. -/
def State.konstDuty (s : State) : Prop := s.bx.kf.val = false ∧ s.bx.kt.val = true

/-- H-CM for the blocks below `n`. -/
def State.counterDuty (s : State) (n : Nat) : Prop :=
  ∀ i < n, BvByte.val (s.cmlo i) = BitVec.ofNat 8 (i % 16) ∧ BvByte.val (s.cmhi i) = BitVec.ofNat 8 (i / 16 % 16)

/-! Classes of commands. -/

end Sys2Proof.Machine

namespace Sys2Proof

open Machine

/-- The commands that evaluate at least one primitive (R320): not SHROW, loads, stores, SETKEY, RDSTAT, RESET, DECRYPT.B,
nor CTR with N = 0. -/
def Instr.evaluates (i : Instr) : Prop :=
  (∃ t, i = .addrkA t ∨ i = .addrkB t) ∨ i = .subbA ∨ i = .subbB ∨ i = .mixcA ∨ i = .mixcB ∨ i = .encblkA ∨
    i = .encblkB ∨ ∃ n, n ≠ 0 ∧ (i = .ctrA n ∨ i = .ctrB n)

/-- RDSTAT and RESET, the commands that a malformed table does not stop (R302). -/
def Instr.ignoresTable (i : Instr) : Prop :=
  i = .rdstatStatusA ∨ i = .rdstatStatusB ∨ i = .rdstatOutnA ∨ i = .rdstatOutnB ∨ i = .rdstatCmlonB ∨
    i = .rdstatCmhinB ∨ i = .rdstatCapA ∨ i = .rdstatCapB ∨ i = .resetA ∨ i = .resetB

/-- The storage spaces of its own engine that a command writes (the W entries of R38). -/
def Instr.writes : Instr → List Space
  | .addrkA _ | .addrkB _ | .subbA | .subbB | .shrowA | .shrowB | .mixcA | .mixcB | .encblkA | .encblkB => [.st]
  | .ctrA _ | .ctrB _ => [.out]
  | .ldStA | .ldStB => [.st]
  | .ldIvA | .ldIvB => [.iv]
  | .ldRkA | .ldRkB => [.rk]
  | .ldPtA _ | .ldPtB _ => [.pt]
  | .ldCmloB => [.cmlo]
  | .ldCmhiB => [.cmhi]
  | .ldKonstB => [.konst]
  | .stStA | .stStB | .stOutA _ | .stOutB _ | .decryptB _ _ | .setkeyEkA | .setkeyEkB | .setkeySkB | .rdstatStatusA
  | .rdstatStatusB | .rdstatOutnA | .rdstatOutnB | .rdstatCmlonB | .rdstatCmhinB | .rdstatCapA | .rdstatCapB | .resetA
  | .resetB => []

/-- The errors a command may raise once it is decoded (R302 to R312, R321, R322). -/
def Instr.errors : Instr → List ErrCode
  | .addrkA _ | .addrkB _ => [.tableMalformed, .roundRange, .notLoaded, .noEvalKey, .gateFail]
  | .subbA | .subbB | .mixcA | .mixcB | .encblkA | .encblkB => [.tableMalformed, .notLoaded, .noEvalKey, .gateFail]
  | .shrowA | .shrowB => [.tableMalformed, .notLoaded]
  | .ctrA _ => [.tableMalformed, .indexRange, .notLoaded, .noEvalKey, .gateFail]
  | .ctrB _ => [.tableMalformed, .indexRange, .sizeList, .notLoaded, .noEvalKey, .gateFail]
  | .ldStA | .ldStB | .ldIvA | .ldIvB => [.tableMalformed, .sizeBlock]
  | .ldRkA | .ldRkB => [.tableMalformed, .sizeSchedule, .immutable]
  | .ldPtA _ | .ldPtB _ => [.tableMalformed, .indexRange, .sizeBlock]
  | .ldCmloB | .ldCmhiB | .ldKonstB => [.tableMalformed, .sizeList]
  | .stStA | .stStB => [.tableMalformed, .notLoaded]
  | .stOutA _ | .stOutB _ => [.tableMalformed, .indexRange, .notLoaded]
  | .decryptB .secretKey _ => [.tableMalformed, .indexRange, .notLoaded, .noSecretKey]
  | .decryptB .trivial _ => [.tableMalformed, .indexRange, .notLoaded, .decryptMismatch]
  | .setkeyEkA | .setkeyEkB | .setkeySkB => [.tableMalformed, .immutable]
  | .rdstatStatusA | .rdstatStatusB | .rdstatOutnA | .rdstatOutnB | .rdstatCmlonB | .rdstatCmhinB | .rdstatCapA
  | .rdstatCapB | .resetA | .resetB => []

/-- The state with the destination of a failed evaluation invalidated: STV.e for the in-place commands, OUTN.e for CTR
(R307). Meant for the commands that evaluate. -/
def Instr.invalidated (i : Instr) (s : State) : State :=
  match i with
  | .addrkA _ | .subbA | .mixcA | .encblkA => { s with a := { s.a with stv := false } }
  | .addrkB _ | .subbB | .mixcB | .encblkB => { s with b := { s.b with stv := false } }
  | .ctrA _ => { s with a := { s.a with outn := 0 } }
  | .ctrB _ => { s with b := { s.b with outn := 0 } }
  | .shrowA | .shrowB | .ldStA | .ldStB | .ldIvA | .ldIvB | .ldRkA | .ldRkB | .ldPtA _ | .ldPtB _ | .ldCmloB | .ldCmhiB
  | .ldKonstB | .stStA | .stStB | .stOutA _ | .stOutB _ | .decryptB _ _ | .setkeyEkA | .setkeyEkB | .setkeySkB
  | .rdstatStatusA | .rdstatStatusB | .rdstatOutnA | .rdstatOutnB | .rdstatCmlonB | .rdstatCmhinB | .rdstatCapA
  | .rdstatCapB | .resetA | .resetB => s

end Sys2Proof

namespace Sys2Proof.Machine

/-! Relations between states. -/

/-- The flags and counts of an engine agree; its ciphertexts may differ. -/
def Engine.sameControl {α : Type} (e e' : Engine α) : Prop :=
  e.stv = e'.stv ∧ e.ivv = e'.ivv ∧ e.rkv = e'.rkv ∧ e.ptv = e'.ptv ∧ e.outn = e'.outn ∧ e.ekv = e'.ekv ∧
    e.wrap = e'.wrap ∧ e.err = e'.err ∧ e.errcode = e'.errcode

/-- Everything but ciphertexts agrees: flags, counts, table, capacity, and the number of payload beats. -/
def State.sameControl (s s' : State) : Prop :=
  s.a.sameControl s'.a ∧ s.b.sameControl s'.b ∧ s.bx.cmlon = s'.bx.cmlon ∧ s.bx.cmhin = s'.bx.cmhin ∧
    s.bx.kv = s'.bx.kv ∧ s.bx.skv = s'.bx.skv ∧ s.sbox = s'.sbox ∧ s.tblok = s'.tblok ∧ s.cap = s'.cap ∧
    s.payload.length = s'.payload.length ∧ s.primfail = s'.primfail

/-- All that a command of engine A may read agrees: engine A, the shared table and its flag, the capacity, the port. -/
def State.sameForA (s s' : State) : Prop :=
  s.a = s'.a ∧ s.sbox = s'.sbox ∧ s.tblok = s'.tblok ∧ s.cap = s'.cap ∧ s.payload = s'.payload ∧
    s.primfail = s'.primfail ∧ s.fresh = s'.fresh

/-- All that a command of engine B may read agrees: engine B, the shared table and its flag, the capacity, the port. -/
def State.sameForB (s s' : State) : Prop :=
  s.b = s'.b ∧ s.bx = s'.bx ∧ s.sbox = s'.sbox ∧ s.tblok = s'.tblok ∧ s.cap = s'.cap ∧ s.payload = s'.payload ∧
    s.primfail = s'.primfail ∧ s.fresh = s'.fresh

/-- Two engines agree in all that a command may read: flags, counts, and the contents whose flag or count says that they
hold a value (R34). `d` is what an unlisted block reads as. -/
structure Engine.sameValid {α : Type} (d : Block α) (e e' : Engine α) : Prop where
  control : e.sameControl e'
  st : e.stv = true → e.st = e'.st
  iv : e.ivv = true → e.iv = e'.iv
  rk : e.rkv = true → e.rk = e'.rk
  pt : ∀ i, e.ptValid i = true → Memory.read d e.pt i = Memory.read d e'.pt i
  out : ∀ i < e.outn, Memory.read d e.out i = Memory.read d e'.out i

/-- Two states agree in all but contents that hold no value (R34), the last response and what the host presents
included. -/
structure State.sameValid (s s' : State) : Prop where
  engine_a : s.a.sameValid blankBlockA s'.a
  engine_b : s.b.sameValid blankBlockB s'.b
  cmlon : s.bx.cmlon = s'.bx.cmlon
  cmlo : ∀ i < s.bx.cmlon, s.cmlo i = s'.cmlo i
  cmhin : s.bx.cmhin = s'.bx.cmhin
  cmhi : ∀ i < s.bx.cmhin, s.cmhi i = s'.cmhi i
  kv : s.bx.kv = s'.bx.kv
  konst : s.bx.kv = true → s.bx.kf = s'.bx.kf ∧ s.bx.kt = s'.bx.kt
  skv : s.bx.skv = s'.bx.skv
  sbox : s.sbox = s'.sbox
  tblok : s.tblok = s'.tblok
  cap : s.cap = s'.cap
  input : s.input = s'.input
  payload : s.payload = s'.payload
  primfail : s.primfail = s'.primfail
  response : s.response = s'.response
  fresh : s.fresh = s'.fresh

/-- An engine with ERR, ERRCODE and WRAP taken out. -/
def Engine.withoutSticky {α : Type} (e : Engine α) : Engine α := { e with err := false, errcode := 0, wrap := false }

/-- The state with ERR, ERRCODE and WRAP of both engines taken out (R30). -/
def State.withoutSticky (s : State) : State := { s with a := s.a.withoutSticky, b := s.b.withoutSticky }

/-! The pseudo-instructions of R101, as what the host presents. -/

/-- A command presented without payload, no primitive failing. -/
def present (i : Instr) : HostInput := .command (encode i) [] false

/-- `ROUND.A t`. -/
def roundA (t : Nat) : List Instr := [.subbA, .shrowA, .mixcA, .addrkA t]

/-- `ROUND.B t`. -/
def roundB (t : Nat) : List Instr := [.subbB, .shrowB, .mixcB, .addrkB t]

/-- `ENCSEQ.A`, 40 commands. -/
def encseqA : List Instr :=
  .addrkA 0 :: ([1, 2, 3, 4, 5, 6, 7, 8, 9].flatMap roundA ++ [.subbA, .shrowA, .addrkA 10])

/-- `ENCSEQ.B`, 40 commands. -/
def encseqB : List Instr :=
  .addrkB 0 :: ([1, 2, 3, 4, 5, 6, 7, 8, 9].flatMap roundB ++ [.subbB, .shrowB, .addrkB 10])

/-! The illegal commands of R96, clause by clause. -/

/-- SEL is a value R92 lists for the OP and engine. -/
def selectorListed (op : Nat) (eng : EngineId) (sel : Nat) : Bool :=
  match op with
  | 0x7 => sel ∈ [0, 1, 2, 3] || (eng = .B && sel ∈ [5, 6, 7])
  | 0x8 => sel ∈ [0, 4]
  | 0x9 => sel ∈ [0, 1]
  | 0xA => sel = 0 || (eng = .B && sel = 1)
  | 0xB => sel ∈ [0, 1, 4] || (eng = .B && sel ∈ [2, 3])
  | _ => sel = 0

/-- R93 leaves ARG free: ADDRK, CTR, LD with SEL = 3, ST with SEL = 4, DECRYPT. -/
def argFree (op sel : Nat) : Bool :=
  op = 0x1 || op = 0x6 || (op = 0x7 && sel = 3) || (op = 0x8 && sel = 4) || op = 0x9

/-- A word with a payload of `n` beats is illegal: some clause of R96 holds. -/
def illegal (w : Word) (n : Nat) : Prop :=
  bitField w 31 28 ∈ [0x0, 0xC, 0xD, 0xE] ∨ bitField w 26 24 ≠ 0 ∨
    selectorListed (bitField w 31 28) (engineOf w) (bitField w 23 16) = false ∨
    (argFree (bitField w 31 28) (bitField w 23 16) = false ∧ bitField w 15 0 ≠ 0) ∨
    (bitField w 31 28 = 0x9 ∧ engineOf w = .A) ∨ (bitField w 31 28 ≠ 0x7 ∧ n ≠ 0)

end Sys2Proof.Machine
end

