-- ==== Sys2Proof/Certificates/Slice0/Obligations.lean ====
section
/-! DEFINITION. The statements for the provers. Each docstring names the rules it formalises; OBLIGATIONS.json says the
same in words. A next state written out in full is also the frame: what it does not name is unchanged. `k` in a next
state is the model's own count of evaluating commands, of which nothing is said. -/

open Sys2Proof Sys2Proof.Machine

/-! Encoding and the command port. -/

/-- Every well-formed command, presented with a payload R94 allows, decodes from its own word (R90 to R94, R99). -/
def Obligations.EncodedCommandDecodesToItself : Prop :=
  ∀ (i : Instr) (n : Nat), i.wellFormed → (i.isLoad = true ∨ n = 0) → decode (encode i) n = .ok i

/-- A word that decodes to a command is that command's own word, and its operand fits ARG (R90 to R94, R99). -/
def Obligations.DecodedWordIsTheEncoding : Prop :=
  ∀ (w : Word) (n : Nat) (i : Instr), decode w n = .ok i →
    i.wellFormed ∧ encode i = w ∧ (i.isLoad = true ∨ n = 0)

/-- R96, R99: a word that selects a row of R99 decodes to the row's command, with ARG as its operand where the row leaves
ARG free, unless it carries a payload and is no LD; a word that selects no row is illegal; and no two rows overlap. -/
def Obligations.WordSelectsAtMostOneRow : Prop :=
  (∀ row ∈ opcodeRows, ∀ (w : Word) (n : Nat), w &&& row.mask = row.pattern →
    (bitField row.pattern 31 28 = 7 ∨ n = 0) →
    ∃ i, decode w n = .ok i ∧ i.mnemonic = row.mnemonic ∧ i.arg = bitField w 15 0) ∧
  (∀ (w : Word) (n : Nat), (∀ row ∈ opcodeRows, w &&& row.mask ≠ row.pattern) → ∃ e, decode w n = .error e) ∧
  (∀ row ∈ opcodeRows, ∀ (w : Word) (n : Nat), w &&& row.mask = row.pattern →
    bitField row.pattern 31 28 ≠ 7 → n ≠ 0 → ∃ e, decode w n = .error e) ∧
  opcodeRows.length = 41 ∧
  opcodeRows.Pairwise fun r q => ∀ w : Word, w &&& r.mask = r.pattern → w &&& q.mask ≠ q.pattern

/-- R96, R309: a command is refused with IllegalCmd, charged to the engine bit 27 selects and changing nothing else,
exactly when a clause of R96 holds; otherwise its word decodes. -/
def Obligations.IllegalCommandsAreRefused : Prop :=
  ∀ (s : State) (w : Word) (p : List Beat) (b : Bool) (rest : List HostInput), s.input = .command w p b :: rest →
    (illegal w p.length → step s = .next (State.erred { s with input := rest } (engineOf w) .illegalCmd)) ∧
    (¬ illegal w p.length → ∃ i, decode w p.length = .ok i)

/-- Words written out from R99, one or more a family, decode to the commands they stand for (95_test_vectors.md V19). -/
def Obligations.SampleWordsDecode : Prop :=
  decode 0x1000000A 0 = .ok (.addrkA 10) ∧ decode 0x1800000B 0 = .ok (.addrkB 11) ∧
  decode 0x38000000 0 = .ok .shrowB ∧ decode 0x50000000 0 = .ok .encblkA ∧ decode 0x68000101 0 = .ok (.ctrB 257) ∧
  decode 0x7803FFFF 16 = .ok (.ldPtB 65535) ∧ decode 0x78050000 3 = .ok .ldCmloB ∧
  decode 0x8804000F 0 = .ok (.stOutB 15) ∧ decode 0x98010007 0 = .ok (.decryptB .trivial 7) ∧
  decode 0xA8010000 0 = .ok .setkeySkB ∧ decode 0xB8030000 0 = .ok .rdstatCmhinB ∧ decode 0xF8000000 0 = .ok .resetB ∧
  decode 0x90000000 0 = .error .decryptOnEngineA ∧ decode 0x70040000 16 = .error .badSelector ∧
  decode 0x80000000 1 = .error .payloadOnNonLoad

/-- A step at a state that presents a command whose word decodes is `exec` of the command, with the payload and PRIMFAIL
of the command latched at the port and the input moved past it (R69, R90, R94, R320). That `input` holds what the host
will present, and that a step takes its head, is the model's choice (log entry 7). -/
def Obligations.StepRunsTheDecodedCommand : Prop :=
  ∀ (s : State) (w : Word) (p : List Beat) (b : Bool) (rest : List HostInput) (i : Instr),
    s.input = .command w p b :: rest → decode w p.length = .ok i →
    step s = exec i { s with input := rest, payload := p, primfail := b }

/-- With nothing presented a step leaves the state as it is (R350). That an empty `input` stands for a host that presents
nothing is the model's choice (log entry 7). -/
def Obligations.IdleStepKeepsTheState : Prop := ∀ s : State, s.input = [] → step s = .next s

/-- The hardware never halts: every step answers a next state, never a fault or a refusal (R300, R350). -/
def Obligations.EveryStepAnswersNext : Prop := ∀ s : State, ∃ t, step s = .next t

/-! Reset and the invariant. -/

/-- From every state that meets the invariant a step leads to one that meets it (R25, R26, R28, R31, R36, R69). The
canonical form of the storage is the model's choice (log entry 9). -/
def Obligations.StepKeepsTheInvariant : Prop := ∀ s t : State, s.Inv → step s = .next t → t.Inv

/-- The state right after reset meets the invariant. That its storage lists nothing is the model's choice (log entry 9). -/
def Obligations.ResetMeetsTheInvariant : Prop := State.reset.Inv

/-- The values of R37 at the reset state: every validity and capability flag, count, WRAP and error flag 0, SBOX the table
of R170 in order, and TBLOK 1. -/
def Obligations.ResetStateHoldsTheResetValues : Prop :=
  let s := State.reset
  (s.a.stv, s.a.ivv, s.a.rkv, s.a.ekv, s.a.wrap, s.a.err) = (false, false, false, false, false, false) ∧
  (s.b.stv, s.b.ivv, s.b.rkv, s.b.ekv, s.b.wrap, s.b.err) = (false, false, false, false, false, false) ∧
  s.a.errcode = 0 ∧ s.b.errcode = 0 ∧ s.bx.kv = false ∧ s.bx.skv = false ∧
  (∀ i, s.a.ptValid i = false ∧ s.b.ptValid i = false) ∧
  s.a.outn = 0 ∧ s.b.outn = 0 ∧ s.bx.cmlon = 0 ∧ s.bx.cmhin = 0 ∧
  (∀ j : Fin 256, s.sbox[j] = (BitVec.ofNat 8 j.val, sboxByte (BitVec.ofNat 8 j.val))) ∧ s.tblok = true

/-- R37, R340a, R341: the hardware reset input, whether or not it arrives in a running command, sets every flag and count
of both engines to 0, runs the table check again, leaves the contents and SBOX as they were, and gives no response. That
the port then shows no response is the model's choice (log entry 8), and that `running` leaves no trace is U14. -/
def Obligations.HardwareResetClearsBothEngines : Prop :=
  ∀ (s : State) (running : Option (Word × List Beat)) (rest : List HostInput),
    s.input = .hardwareReset running :: rest →
    ∃ ok : Bool, (ok = true ↔ distinctInputs s.sbox) ∧
      step s = .next { s with
        input := rest
        a := { s.a with
          stv := false, ivv := false, rkv := false, ptv := [], outn := 0, ekv := false, wrap := false, err := false, errcode := 0 }
        b := { s.b with
          stv := false, ivv := false, rkv := false, ptv := [], outn := 0, ekv := false, wrap := false, err := false, errcode := 0 }
        bx := { s.bx with cmlon := 0, cmhin := 0, kv := false, skv := false }
        tblok := ok
        payload := []
        primfail := false
        response := none }

/-- R263, R341: RESET.A and RESET.B, which have no checks, reset their own engine only, run the table check again and
respond OK. -/
def Obligations.ResetCommandsResetOneEngine : Prop :=
  encode .resetA = 0xF0000000 ∧ encode .resetB = 0xF8000000 ∧
  ∀ s : State, ∃ ok : Bool, (ok = true ↔ distinctInputs s.sbox) ∧
    exec .resetA s = .next (State.completed { s with
      a := { s.a with
        stv := false, ivv := false, rkv := false, ptv := [], outn := 0, ekv := false, wrap := false, err := false, errcode := 0 }
      tblok := ok } .empty) ∧
    exec .resetB s = .next (State.completed { s with
      b := { s.b with
        stv := false, ivv := false, rkv := false, ptv := [], outn := 0, ekv := false, wrap := false, err := false, errcode := 0 }
      bx := { s.bx with cmlon := 0, cmhin := 0, kv := false, skv := false }
      tblok := ok } .empty)

/-! Rules about every command. -/

/-- No step writes SBOX (R28), and NBLK_MAX is a parameter of the implementation (R4). -/
def Obligations.TableAndCapacityNeverChange : Prop :=
  ∀ s t : State, step s = .next t → t.sbox = s.sbox ∧ t.cap = s.cap

/-- R20: no command of one engine writes state of the other, and none reads it: what a command leaves in its own engine,
the shared flag and its response are the same whatever the other engine holds. -/
def Obligations.EnginesDoNotInterfere : Prop :=
  (∀ (i : Instr) (s t : State), exec i s = .next t →
    (i.engine = .A → t.b = s.b ∧ t.bx = s.bx) ∧ (i.engine = .B → t.a = s.a)) ∧
  (∀ (i : Instr) (s s' t t' : State), i.engine = .A → s.sameForA s' → exec i s = .next t → exec i s' = .next t' →
    t.sameForA t' ∧ t.response = t'.response) ∧
  (∀ (i : Instr) (s s' t t' : State), i.engine = .B → s.sameForB s' → exec i s = .next t → exec i s' = .next t' →
    t.sameForB t' ∧ t.response = t'.response)

/-- R314: a command that responds with an error `c` sets the sticky pair if it was clear, invalidates its destination if
`c` is GateFail (R307), and changes nothing else; so does an illegal command, which its step refuses. -/
def Obligations.ErrorChangesOnlyTheStickyPair : Prop :=
  (∀ (i : Instr) (s t : State) (c : ErrCode), exec i s = .next t → t.response = some (.error c) →
    t = State.erred (if c = .gateFail then i.invalidated s else s) i.engine c) ∧
  ∀ (s t : State) (w : Word) (p : List Beat) (b : Bool) (rest : List HostInput), s.input = .command w p b :: rest →
    illegal w p.length → step s = .next t →
    t = State.erred { s with input := rest } (engineOf w) .illegalCmd

/-- R31: once ERR.e is 1 no step but a reset of the engine changes ERR.e or ERRCODE.e. -/
def Obligations.StickyErrorIsKeptUntilReset : Prop :=
  ∀ s t : State, step s = .next t →
    (s.a.err = true → (t.a.err = true ∧ t.a.errcode = s.a.errcode) ∨
      (∃ r rest, s.input = .hardwareReset r :: rest) ∨
      ∃ w b rest, s.input = .command w [] b :: rest ∧ decode w 0 = .ok .resetA) ∧
    (s.b.err = true → (t.b.err = true ∧ t.b.errcode = s.b.errcode) ∨
      (∃ r rest, s.input = .hardwareReset r :: rest) ∨
      ∃ w b rest, s.input = .command w [] b :: rest ∧ decode w 0 = .ok .resetB)

/-- R30: no command's result depends on ERR, ERRCODE or WRAP; RDSTAT.STATUS shows them and they change nothing else. -/
def Obligations.StickyFlagsInfluenceNoResult : Prop :=
  ∀ (i : Instr) (s s' t t' : State), s.withoutSticky = s'.withoutSticky → exec i s = .next t → exec i s' = .next t' →
    (i ≠ .rdstatStatusA → i ≠ .rdstatStatusB → t.withoutSticky = t'.withoutSticky) ∧
    ({ t with response := none }).withoutSticky = ({ t' with response := none }).withoutSticky

/-- R23, R29, R322: once loaded, the schedule and the keys of an engine are changed by no command but a RESET of that
engine. -/
def Obligations.KeyMaterialIsImmutableUntilReset : Prop :=
  ∀ (i : Instr) (s t : State), exec i s = .next t →
    (s.a.rkv = true → i ≠ .resetA → t.a.rkv = true ∧ t.a.rk = s.a.rk) ∧
    (s.b.rkv = true → i ≠ .resetB → t.b.rkv = true ∧ t.b.rk = s.b.rk) ∧
    (s.a.ekv = true → i ≠ .resetA → t.a.ekv = true) ∧ (s.b.ekv = true → i ≠ .resetB → t.b.ekv = true) ∧
    (s.bx.skv = true → i ≠ .resetB → t.bx.skv = true)

/-- R6: only DECRYPT.B returns a denoted byte. -/
def Obligations.OnlyDecryptReturnsACleartextByte : Prop :=
  ∀ (i : Instr) (s t : State) (v : Byte), exec i s = .next t → t.response = some (.ok (.byte v)) →
    ∃ mode idx, i = .decryptB mode idx

/-- R6, R203: what a command does to the flags and counts, and the code it responds with, do not depend on what any
ciphertext is. DECRYPT.B mode 1, which reads `triv`, is the one exception. -/
def Obligations.ControlDoesNotDependOnCiphertexts : Prop :=
  ∀ (i : Instr) (s s' t t' : State), (∀ idx, i ≠ .decryptB .trivial idx) → s.sameControl s' →
    exec i s = .next t → exec i s' = .next t' →
    t.sameControl t' ∧ t.response.map Response.number = t'.response.map Response.number

/-- R34, U1: no step reads contents that hold no value. From two states that differ only in such contents a step gives two
states that differ only in such contents, and the same response. That both states have the model's canonical storage
(assumption 9) is a premise. -/
def Obligations.InvalidContentsInfluenceNothing : Prop :=
  ∀ s s' t t' : State, s.Inv → s'.Inv → s.sameValid s' → step s = .next t → step s' = .next t' → t.sameValid t'

/-- R38, R60: a slot of a storage space is changed by no command but those that write that space of that engine. -/
def Obligations.StorageIsWrittenOnlyByItsCommands : Prop :=
  ∀ (i : Instr) (s t : State), exec i s = .next t →
    (∀ (sp : Space) (slot : Nat), i.engine = .B ∨ sp ∉ i.writes → t.memReadA sp slot = s.memReadA sp slot) ∧
    (∀ (sp : Space) (slot : Nat), i.engine = .A ∨ sp ∉ i.writes → t.memReadB sp slot = s.memReadB sp slot) ∧
    (∀ slot : Nat, .konst ∉ i.writes → t.memReadKonst slot = s.memReadKonst slot)

/-- R302 to R312, R321, R322: the errors a decoded command may raise are those its rules name. -/
def Obligations.CommandsRaiseOnlyTheirErrors : Prop :=
  ∀ (i : Instr) (s t : State) (c : ErrCode), exec i s = .next t → t.response = some (.error c) → c ∈ i.errors

/-- R302: while TBLOK = 0 every command but RDSTAT and RESET responds TableMalformed and does nothing else; the check
fails just when two inputs are equal, and passes for the fixed table. -/
def Obligations.MalformedTableStopsEveryCommand : Prop :=
  (∀ (i : Instr) (s : State), s.tblok = false → ¬ i.ignoresTable →
    exec i s = .next (s.erred i.engine .tableMalformed)) ∧
  (∀ table : Vector (Byte × Byte) 256, tableCheck table = true ↔ distinctInputs table) ∧
  tableCheck fixedTable = true

/-- R320: the commands that evaluate no primitive ignore PRIMFAIL. -/
def Obligations.CommandsWithoutEvaluationsIgnorePrimfail : Prop :=
  ∀ (i : Instr) (s : State) (b : Bool), ¬ i.evaluates → exec i { s with primfail := b } = exec i s

/-! The commands of engine A. -/

/-- R129, R130: ADDRK.A t. -/
def Obligations.AddRoundKeyAXorsTheRoundKey : Prop :=
  ∀ (t : Nat) (s : State), encode (.addrkA t) = 0x10000000 ||| BitVec.ofNat 32 t ∧
    (∀ c, inPlaceRefusal s s.a (decide (t > 10)) true false true = some c →
      exec (.addrkA t) s = .next (s.erredA c)) ∧
    (inPlaceRefusal s s.a (decide (t > 10)) true false true = none → s.primfail = true →
      exec (.addrkA t) s = .next (State.erredA { s with a := { s.a with stv := false } } .gateFail)) ∧
    (inPlaceRefusal s s.a (decide (t > 10)) true false true = none → s.primfail = false →
      ∃ (blk : Block CtA) (k : Nat),
        exec (.addrkA t) s = .next (State.completed { s with a := { s.a with st := blk }, fresh := k } .empty) ∧
        ∀ (i : Nat) (hi : i < 16) (hk : 16 * t + i < 176), blk[i].val = s.a.st[i].val ^^^ s.a.rk[16 * t + i].val)

/-- R129, R131: SUBB.A, for any table with distinct inputs. -/
def Obligations.SubBytesALooksUpTheTable : Prop :=
  ∀ s : State, encode .subbA = 0x20000000 ∧
    (∀ c, inPlaceRefusal s s.a false false false true = some c → exec .subbA s = .next (s.erredA c)) ∧
    (inPlaceRefusal s s.a false false false true = none → s.primfail = true →
      exec .subbA s = .next (State.erredA { s with a := { s.a with stv := false } } .gateFail)) ∧
    (inPlaceRefusal s s.a false false false true = none → s.primfail = false →
      ∃ (blk : Block CtA) (k : Nat),
        exec .subbA s = .next (State.completed { s with a := { s.a with st := blk }, fresh := k } .empty) ∧
        (distinctInputs s.sbox → ∀ (i : Fin 16) (j : Fin 256), s.sbox[j].1 = s.a.st[i].val → blk[i].val = s.sbox[j].2) ∧
        (s.fixedSbox → ∀ i : Fin 16, blk[i].val = sboxByte s.a.st[i].val))

/-- R129, R132, R134: SHROW.A moves the ciphertexts themselves, whether or not PRIMFAIL is raised. -/
def Obligations.ShiftRowsAMovesTheCiphertexts : Prop :=
  ∀ s : State, encode .shrowA = 0x30000000 ∧
    (∀ c, inPlaceRefusal s s.a false false false false = some c → exec .shrowA s = .next (s.erredA c)) ∧
    (inPlaceRefusal s s.a false false false false = none →
      exec .shrowA s = .next (State.completed { s with a := { s.a with st := Reference.shiftRows s.a.st } } .empty)) ∧
    (∀ (r c : Nat) (hr : r < 4) (hc : c < 4),
      (Reference.shiftRows s.a.st)[r + 4 * c] = s.a.st[r + 4 * ((c + r) % 4)])

/-- R129, R133: MIXC.A. -/
def Obligations.MixColumnsAFollowsTheColumnFormula : Prop :=
  ∀ s : State, encode .mixcA = 0x40000000 ∧
    (∀ c, inPlaceRefusal s s.a false false false true = some c → exec .mixcA s = .next (s.erredA c)) ∧
    (inPlaceRefusal s s.a false false false true = none → s.primfail = true →
      exec .mixcA s = .next (State.erredA { s with a := { s.a with stv := false } } .gateFail)) ∧
    (inPlaceRefusal s s.a false false false true = none → s.primfail = false →
      ∃ (blk : Block CtA) (k : Nat),
        exec .mixcA s = .next (State.completed { s with a := { s.a with st := blk }, fresh := k } .empty) ∧
        denoteA blk = Reference.mixColumns Reference.double (denoteA s.a.st))

/-- R129, R200, R201: ENCBLK.A. -/
def Obligations.EncryptBlockAEncrypts : Prop :=
  ∀ s : State, encode .encblkA = 0x50000000 ∧
    (∀ c, inPlaceRefusal s s.a false true false true = some c → exec .encblkA s = .next (s.erredA c)) ∧
    (inPlaceRefusal s s.a false true false true = none → s.primfail = true →
      exec .encblkA s = .next (State.erredA { s with a := { s.a with stv := false } } .gateFail)) ∧
    (inPlaceRefusal s s.a false true false true = none → s.primfail = false →
      ∃ (blk : Block CtA) (k : Nat),
        exec .encblkA s = .next (State.completed { s with a := { s.a with st := blk }, fresh := k } .empty) ∧
        (s.fixedSbox → denoteA blk = Reference.enc Reference.double (denoteA s.a.st) (denoteA s.a.rk)))

/-- R220, R222, R225, R227: CTR.A n. -/
def Obligations.CtrAComposesTheBlocks : Prop :=
  ∀ (n : Nat) (s : State), encode (.ctrA n) = 0x60000000 ||| BitVec.ofNat 32 n ∧
    (∀ c, ctrRefusalA s n = some c → exec (.ctrA n) s = .next (s.erredA c)) ∧
    (ctrRefusalA s n = none → s.primfail = true → n ≠ 0 →
      exec (.ctrA n) s = .next (State.erredA { s with a := { s.a with outn := 0 } } .gateFail)) ∧
    (ctrRefusalA s n = none → s.primfail = false ∨ n = 0 → s.StorageInv →
      ∃ t : State, exec (.ctrA n) s = .next t ∧
        t = State.completed { s with
          a := { s.a with out := t.a.out, outn := n, wrap := s.a.wrap || decide (n > 256) }, fresh := t.fresh } .empty ∧
        (s.fixedSbox → ∀ i < n, denoteA (t.outA i) =
          Reference.ctrBlock Reference.double
            (Reference.modifiedIv (denoteA s.a.iv) (BitVec.ofNat 8 (i % 16)) (BitVec.ofNat 8 (i / 16 % 16)))
            (denoteA s.a.rk) (denoteA (s.ptA i))) ∧
        ∀ i, n ≤ i → t.outA i = s.outA i)

/-! The commands of engine B. -/

/-- R129, R175: ADDRK.B t, bit by bit. -/
def Obligations.AddRoundKeyBXorsTheRoundKey : Prop :=
  ∀ (t : Nat) (s : State), encode (.addrkB t) = 0x18000000 ||| BitVec.ofNat 32 t ∧
    (∀ c, inPlaceRefusal s s.b (decide (t > 10)) true false true = some c →
      exec (.addrkB t) s = .next (s.erredB c)) ∧
    (inPlaceRefusal s s.b (decide (t > 10)) true false true = none → s.primfail = true →
      exec (.addrkB t) s = .next (State.erredB { s with b := { s.b with stv := false } } .gateFail)) ∧
    (inPlaceRefusal s s.b (decide (t > 10)) true false true = none → s.primfail = false →
      ∃ (blk : Block BvByte) (k : Nat),
        exec (.addrkB t) s = .next (State.completed { s with b := { s.b with st := blk }, fresh := k } .empty) ∧
        ∀ (i : Nat) (hi : i < 16) (hk : 16 * t + i < 176),
          (∀ q : Fin 8, blk[i][q].val = Bool.xor s.b.st[i][q].val s.b.rk[16 * t + i][q].val) ∧
          BvByte.val blk[i] = BvByte.val s.b.st[i] ^^^ BvByte.val s.b.rk[16 * t + i])

/-- R129, R176: SUBB.B. -/
def Obligations.SubBytesBSubstitutesEveryByte : Prop :=
  ∀ s : State, encode .subbB = 0x28000000 ∧
    (∀ c, inPlaceRefusal s s.b false false false true = some c → exec .subbB s = .next (s.erredB c)) ∧
    (inPlaceRefusal s s.b false false false true = none → s.primfail = true →
      exec .subbB s = .next (State.erredB { s with b := { s.b with stv := false } } .gateFail)) ∧
    (inPlaceRefusal s s.b false false false true = none → s.primfail = false →
      ∃ (blk : Block BvByte) (k : Nat),
        exec .subbB s = .next (State.completed { s with b := { s.b with st := blk }, fresh := k } .empty) ∧
        ∀ i : Fin 16, BvByte.val blk[i] = sboxByte (BvByte.val s.b.st[i]))

/-- R129, R134, R177: SHROW.B moves whole BitVectorBytes, whether or not PRIMFAIL is raised. -/
def Obligations.ShiftRowsBMovesTheCiphertexts : Prop :=
  ∀ s : State, encode .shrowB = 0x38000000 ∧
    (∀ c, inPlaceRefusal s s.b false false false false = some c → exec .shrowB s = .next (s.erredB c)) ∧
    (inPlaceRefusal s s.b false false false false = none →
      exec .shrowB s = .next (State.completed { s with b := { s.b with st := Reference.shiftRows s.b.st } } .empty)) ∧
    (∀ (r c : Nat) (hr : r < 4) (hc : c < 4),
      (Reference.shiftRows s.b.st)[r + 4 * c] = s.b.st[r + 4 * ((c + r) % 4)])

/-- R129, R168, R169, R178: MIXC.B, with whatever constants are loaded; under the host duty it is the MixColumns of
engine A. -/
def Obligations.MixColumnsBFollowsTheColumnFormula : Prop :=
  ∀ s : State, encode .mixcB = 0x48000000 ∧
    (∀ c, inPlaceRefusal s s.b false false true true = some c → exec .mixcB s = .next (s.erredB c)) ∧
    (inPlaceRefusal s s.b false false true true = none → s.primfail = true →
      exec .mixcB s = .next (State.erredB { s with b := { s.b with stv := false } } .gateFail)) ∧
    (inPlaceRefusal s s.b false false true true = none → s.primfail = false →
      ∃ (blk : Block BvByte) (k : Nat),
        exec .mixcB s = .next (State.completed { s with b := { s.b with st := blk }, fresh := k } .empty) ∧
        denoteB blk = Reference.mixColumns (Reference.doubleBits s.bx.kf.val s.bx.kt.val) (denoteB s.b.st) ∧
        (s.konstDuty → denoteB blk = Reference.mixColumns Reference.double (denoteB s.b.st)))

/-- R129, R200, R202: ENCBLK.B, with whatever constants are loaded; under the host duty it is `enc` over bytes. -/
def Obligations.EncryptBlockBEncrypts : Prop :=
  ∀ s : State, encode .encblkB = 0x58000000 ∧
    (∀ c, inPlaceRefusal s s.b false true true true = some c → exec .encblkB s = .next (s.erredB c)) ∧
    (inPlaceRefusal s s.b false true true true = none → s.primfail = true →
      exec .encblkB s = .next (State.erredB { s with b := { s.b with stv := false } } .gateFail)) ∧
    (inPlaceRefusal s s.b false true true true = none → s.primfail = false →
      ∃ (blk : Block BvByte) (k : Nat),
        exec .encblkB s = .next (State.completed { s with b := { s.b with st := blk }, fresh := k } .empty) ∧
        denoteB blk =
          Reference.enc (Reference.doubleBits s.bx.kf.val s.bx.kt.val) (denoteB s.b.st) (denoteB s.b.rk) ∧
        (s.konstDuty → denoteB blk = Reference.enc Reference.double (denoteB s.b.st) (denoteB s.b.rk)))

/-- R221, R223, R225, R227: CTR.B n, with whatever counter material and constants are loaded; under the host duties on
both, the value law of CTR.A. -/
def Obligations.CtrBComposesTheBlocks : Prop :=
  ∀ (n : Nat) (s : State), encode (.ctrB n) = 0x68000000 ||| BitVec.ofNat 32 n ∧
    (∀ c, ctrRefusalB s n = some c → exec (.ctrB n) s = .next (s.erredB c)) ∧
    (ctrRefusalB s n = none → s.primfail = true → n ≠ 0 →
      exec (.ctrB n) s = .next (State.erredB { s with b := { s.b with outn := 0 } } .gateFail)) ∧
    (ctrRefusalB s n = none → s.primfail = false ∨ n = 0 → s.StorageInv →
      ∃ t : State, exec (.ctrB n) s = .next t ∧
        t = State.completed { s with
          b := { s.b with out := t.b.out, outn := n, wrap := s.b.wrap || decide (n > 256) }, fresh := t.fresh } .empty ∧
        (∀ i < n, denoteB (t.outB i) =
          Reference.ctrBlock (Reference.doubleBits s.bx.kf.val s.bx.kt.val)
            (Reference.modifiedIv (denoteB s.b.iv) (BvByte.val (s.cmlo i)) (BvByte.val (s.cmhi i)))
            (denoteB s.b.rk) (denoteB (s.ptB i))) ∧
        (s.konstDuty → s.counterDuty n → ∀ i < n, denoteB (t.outB i) =
          Reference.ctrBlock Reference.double
            (Reference.modifiedIv (denoteB s.b.iv) (BitVec.ofNat 8 (i % 16)) (BitVec.ofNat 8 (i / 16 % 16)))
            (denoteB s.b.rk) (denoteB (s.ptB i))) ∧
        ∀ i, n ≤ i → t.outB i = s.outB i)

/-- R182, R306, R321: DECRYPT.B, in both modes. -/
def Obligations.DecryptBReturnsTheDenotedByte : Prop :=
  ∀ (mode : DecryptMode) (idx : Nat) (s : State),
    encode (.decryptB mode idx) = 0x98000000 ||| (if mode = .trivial then 0x10000 else 0) ||| BitVec.ofNat 32 idx ∧
    (∀ c, decryptRefusal s mode idx = some c → exec (.decryptB mode idx) s = .next (s.erredB c)) ∧
    (decryptRefusal s mode idx = none →
      ∃ v : Byte, exec (.decryptB mode idx) s = .next (s.completed (.byte v)) ∧
        ∀ (hi : idx < 16),
          v.toNat = ((List.finRange 8).map fun k => (s.b.st[idx][k].val).toNat * 2 ^ k.val).sum)

/-! The host commands. -/

/-- R250, R303: LD.ST.A and LD.ST.B. -/
def Obligations.LoadWorkingBlockStoresThePayload : Prop :=
  encode .ldStA = 0x70000000 ∧ encode .ldStB = 0x78000000 ∧
  ∀ s : State,
    (∀ c, loadBlockRefusal s = some c →
      exec .ldStA s = .next (s.erredA c) ∧ exec .ldStB s = .next (s.erredB c)) ∧
    (loadBlockRefusal s = none →
      (∃ blk : Block CtA,
        exec .ldStA s = .next (State.completed { s with a := { s.a with st := blk, stv := true } } .empty) ∧
        ∀ (k : Nat) (hk : k < 16) (c : CtA), s.payload[k]? = some (.arith c) → blk[k] = c) ∧
      ∃ blk : Block BvByte,
        exec .ldStB s = .next (State.completed { s with b := { s.b with st := blk, stv := true } } .empty) ∧
        ∀ (k : Nat) (hk : k < 16) (v : BvByte), s.payload[k]? = some (.bits v) → blk[k] = v)

/-- R251, R303: LD.IV.A and LD.IV.B. -/
def Obligations.LoadIvStoresThePayload : Prop :=
  encode .ldIvA = 0x70010000 ∧ encode .ldIvB = 0x78010000 ∧
  ∀ s : State,
    (∀ c, loadBlockRefusal s = some c →
      exec .ldIvA s = .next (s.erredA c) ∧ exec .ldIvB s = .next (s.erredB c)) ∧
    (loadBlockRefusal s = none →
      (∃ blk : Block CtA,
        exec .ldIvA s = .next (State.completed { s with a := { s.a with iv := blk, ivv := true } } .empty) ∧
        ∀ (k : Nat) (hk : k < 16) (c : CtA), s.payload[k]? = some (.arith c) → blk[k] = c) ∧
      ∃ blk : Block BvByte,
        exec .ldIvB s = .next (State.completed { s with b := { s.b with iv := blk, ivv := true } } .empty) ∧
        ∀ (k : Nat) (hk : k < 16) (v : BvByte), s.payload[k]? = some (.bits v) → blk[k] = v)

/-- R252, R304, R322: LD.RK.A and LD.RK.B. -/
def Obligations.LoadScheduleStoresThePayloadOnce : Prop :=
  encode .ldRkA = 0x70020000 ∧ encode .ldRkB = 0x78020000 ∧
  ∀ s : State,
    (∀ c, loadScheduleRefusal s s.a.rkv = some c → exec .ldRkA s = .next (s.erredA c)) ∧
    (∀ c, loadScheduleRefusal s s.b.rkv = some c → exec .ldRkB s = .next (s.erredB c)) ∧
    (loadScheduleRefusal s s.a.rkv = none →
      ∃ rk : Schedule CtA,
        exec .ldRkA s = .next (State.completed { s with a := { s.a with rk := rk, rkv := true } } .empty) ∧
        ∀ (k : Nat) (hk : k < 176) (c : CtA), s.payload[k]? = some (.arith c) → rk[k] = c) ∧
    (loadScheduleRefusal s s.b.rkv = none →
      ∃ rk : Schedule BvByte,
        exec .ldRkB s = .next (State.completed { s with b := { s.b with rk := rk, rkv := true } } .empty) ∧
        ∀ (k : Nat) (hk : k < 176) (v : BvByte), s.payload[k]? = some (.bits v) → rk[k] = v)

/-- R253, R303, R311: LD.PT.A idx and LD.PT.B idx write one block and its flag, and no other. -/
def Obligations.LoadInputBlockStoresThePayload : Prop :=
  ∀ (idx : Nat) (s : State),
    encode (.ldPtA idx) = 0x70030000 ||| BitVec.ofNat 32 idx ∧ encode (.ldPtB idx) = 0x78030000 ||| BitVec.ofNat 32 idx ∧
    (∀ c, loadPtRefusal s idx = some c →
      exec (.ldPtA idx) s = .next (s.erredA c) ∧ exec (.ldPtB idx) s = .next (s.erredB c)) ∧
    (loadPtRefusal s idx = none → s.StorageInv →
      (∃ t : State, exec (.ldPtA idx) s = .next t ∧
        t = State.completed { s with a := { s.a with pt := t.a.pt, ptv := t.a.ptv } } .empty ∧
        (∀ (k : Nat) (hk : k < 16) (c : CtA), s.payload[k]? = some (.arith c) → (t.ptA idx)[k] = c) ∧
        t.a.ptValid idx = true ∧ ∀ i, i ≠ idx → t.ptA i = s.ptA i ∧ t.a.ptValid i = s.a.ptValid i) ∧
      ∃ t : State, exec (.ldPtB idx) s = .next t ∧
        t = State.completed { s with b := { s.b with pt := t.b.pt, ptv := t.b.ptv } } .empty ∧
        (∀ (k : Nat) (hk : k < 16) (v : BvByte), s.payload[k]? = some (.bits v) → (t.ptB idx)[k] = v) ∧
        t.b.ptValid idx = true ∧ ∀ i, i ≠ idx → t.ptB i = s.ptB i ∧ t.b.ptValid i = s.b.ptValid i)

/-- R254, R255, R312: LD.CMLO.B and LD.CMHI.B replace the list and its length. -/
def Obligations.LoadCounterListsStoresThePayload : Prop :=
  encode .ldCmloB = 0x78050000 ∧ encode .ldCmhiB = 0x78060000 ∧
  ∀ s : State,
    (∀ c, loadCounterRefusal s = some c →
      exec .ldCmloB s = .next (s.erredB c) ∧ exec .ldCmhiB s = .next (s.erredB c)) ∧
    (loadCounterRefusal s = none → s.StorageInv →
      (∃ t : State, exec .ldCmloB s = .next t ∧
        t = State.completed { s with bx := { s.bx with cmlo := t.bx.cmlo, cmlon := s.payload.length } } .empty ∧
        (∀ (k : Nat) (v : BvByte), s.payload[k]? = some (.bits v) → t.cmlo k = v) ∧
        ∀ k, s.payload.length ≤ k → t.cmlo k = s.cmlo k) ∧
      ∃ t : State, exec .ldCmhiB s = .next t ∧
        t = State.completed { s with bx := { s.bx with cmhi := t.bx.cmhi, cmhin := s.payload.length } } .empty ∧
        (∀ (k : Nat) (v : BvByte), s.payload[k]? = some (.bits v) → t.cmhi k = v) ∧
        ∀ k, s.payload.length ≤ k → t.cmhi k = s.cmhi k)

/-- R256, R312: LD.KONST.B, beat 0 to KF and beat 1 to KT. -/
def Obligations.LoadConstantsStoresThePayload : Prop :=
  encode .ldKonstB = 0x78070000 ∧
  ∀ s : State,
    (∀ c, loadKonstRefusal s = some c → exec .ldKonstB s = .next (s.erredB c)) ∧
    (loadKonstRefusal s = none →
      ∃ kf kt : CtB,
        exec .ldKonstB s = .next (State.completed { s with bx := { s.bx with kf := kf, kt := kt, kv := true } } .empty) ∧
        (∀ c, s.payload[0]? = some (.bit c) → kf = c) ∧ ∀ c, s.payload[1]? = some (.bit c) → kt = c)

/-- R257, R308: ST.ST.A and ST.ST.B return the 16 ciphertexts and change nothing. -/
def Obligations.StoreWorkingBlockReturnsTheBlock : Prop :=
  encode .stStA = 0x80000000 ∧ encode .stStB = 0x88000000 ∧
  ∀ s : State,
    (∀ c, storeStRefusal s s.a.stv = some c → exec .stStA s = .next (s.erredA c)) ∧
    (∀ c, storeStRefusal s s.b.stv = some c → exec .stStB s = .next (s.erredB c)) ∧
    (storeStRefusal s s.a.stv = none → exec .stStA s = .next (s.completed (.blockA s.a.st))) ∧
    (storeStRefusal s s.b.stv = none → exec .stStB s = .next (s.completed (.blockB s.b.st)))

/-- R258, R308, R311: ST.OUT.A idx and ST.OUT.B idx return the 16 ciphertexts of one output block and change nothing. -/
def Obligations.StoreOutputBlockReturnsTheBlock : Prop :=
  ∀ (idx : Nat) (s : State),
    encode (.stOutA idx) = 0x80040000 ||| BitVec.ofNat 32 idx ∧ encode (.stOutB idx) = 0x88040000 ||| BitVec.ofNat 32 idx ∧
    (∀ c, storeOutRefusal s s.a.outn idx = some c → exec (.stOutA idx) s = .next (s.erredA c)) ∧
    (∀ c, storeOutRefusal s s.b.outn idx = some c → exec (.stOutB idx) s = .next (s.erredB c)) ∧
    (storeOutRefusal s s.a.outn idx = none → exec (.stOutA idx) s = .next (s.completed (.blockA (s.outA idx)))) ∧
    (storeOutRefusal s s.b.outn idx = none → exec (.stOutB idx) s = .next (s.completed (.blockB (s.outB idx))))

/-- R260, R261, R322: SETKEY.EK.A, SETKEY.EK.B and SETKEY.SK.B attach a key once. -/
def Obligations.SetkeyAttachesAKeyOnce : Prop :=
  encode .setkeyEkA = 0xA0000000 ∧ encode .setkeyEkB = 0xA8000000 ∧ encode .setkeySkB = 0xA8010000 ∧
  ∀ s : State,
    (∀ c, setkeyRefusal s s.a.ekv = some c → exec .setkeyEkA s = .next (s.erredA c)) ∧
    (∀ c, setkeyRefusal s s.b.ekv = some c → exec .setkeyEkB s = .next (s.erredB c)) ∧
    (∀ c, setkeyRefusal s s.bx.skv = some c → exec .setkeySkB s = .next (s.erredB c)) ∧
    (setkeyRefusal s s.a.ekv = none →
      exec .setkeyEkA s = .next (State.completed { s with a := { s.a with ekv := true } } .empty)) ∧
    (setkeyRefusal s s.b.ekv = none →
      exec .setkeyEkB s = .next (State.completed { s with b := { s.b with ekv := true } } .empty)) ∧
    (setkeyRefusal s s.bx.skv = none →
      exec .setkeySkB s = .next (State.completed { s with bx := { s.bx with skv := true } } .empty))

/-- R32, R262: RDSTAT.STATUS.A and RDSTAT.STATUS.B return the status word, whose every bit is given, and change nothing. -/
def Obligations.ReadStatusReturnsTheStatusWord : Prop :=
  encode .rdstatStatusA = 0xB0000000 ∧ encode .rdstatStatusB = 0xB8000000 ∧
  ∀ s : State, ∃ wa wb : Word,
    exec .rdstatStatusA s = .next (s.completed (.word wa)) ∧ exec .rdstatStatusB s = .next (s.completed (.word wb)) ∧
    ([0, 1, 2, 3, 4, 5, 6, 7, 8, 31].map wa.getLsbD =
      [s.tblok, s.a.ekv, false, s.a.rkv, s.a.ivv, s.a.stv, false, s.a.wrap, s.a.err, false]) ∧
    ([0, 1, 2, 3, 4, 5, 6, 7, 8, 31].map wb.getLsbD =
      [s.tblok, s.b.ekv, s.bx.skv, s.b.rkv, s.b.ivv, s.b.stv, s.bx.kv, s.b.wrap, s.b.err, true]) ∧
    bitField wa 15 9 = 0 ∧ bitField wa 23 16 = s.a.errcode.toNat ∧ bitField wa 30 24 = 0 ∧
    bitField wb 15 9 = 0 ∧ bitField wb 23 16 = s.b.errcode.toNat ∧ bitField wb 30 24 = 0

/-- R262: the other RDSTAT commands return a count, zero-extended, and change nothing. A count is at most NBLK_MAX. -/
def Obligations.ReadCountsReturnsTheCounts : Prop :=
  encode .rdstatOutnA = 0xB0010000 ∧ encode .rdstatOutnB = 0xB8010000 ∧ encode .rdstatCmlonB = 0xB8020000 ∧
  encode .rdstatCmhinB = 0xB8030000 ∧ encode .rdstatCapA = 0xB0040000 ∧ encode .rdstatCapB = 0xB8040000 ∧
  ∀ s : State, ∃ oa ob lo hi cap : Word,
    exec .rdstatOutnA s = .next (s.completed (.word oa)) ∧ exec .rdstatOutnB s = .next (s.completed (.word ob)) ∧
    exec .rdstatCmlonB s = .next (s.completed (.word lo)) ∧ exec .rdstatCmhinB s = .next (s.completed (.word hi)) ∧
    exec .rdstatCapA s = .next (s.completed (.word cap)) ∧ exec .rdstatCapB s = .next (s.completed (.word cap)) ∧
    cap.toNat = s.cap.blocks ∧
    (s.StorageInv → oa.toNat = s.a.outn ∧ ob.toNat = s.b.outn ∧ lo.toNat = s.bx.cmlon ∧ hi.toNat = s.bx.cmhin)

/-! The units, and what the engines compute. -/

/-- R172: the S-box circuit is bit-exact with the table for every input, whatever ciphertexts carry it. The list of R171
has 128 gates, 34 of them AND, a longest path of 16 gates, and at most 4 AND gates on a path (R352): these four counts are
of that list, which the spec takes from general knowledge (93 G2) and the model with it (log entry 13, PRESUMED). -/
def Obligations.SboxCircuitEqualsTheTable : Prop :=
  (∀ (p : Ticket) (x : BvByte), BvByte.val (sboxB p x) = sboxByte (BvByte.val x)) ∧
  sboxCircuit.length = 128 ∧ (sboxCircuit.filter (·.op = .and)).length = 34 ∧
  (runSboxCircuit (fun _ _ a b => max a b + 1) 0 (Vector.replicate 8 0)).toList.max? = some 16 ∧
  (runSboxCircuit (fun op _ a b => max a b + if op = .and then 1 else 0) 0 (Vector.replicate 8 0)).toList.max? = some 4

/-- R126: the doubling unit of engine A has the value law, is a bijection on bytes, and is multiplication by 2 in the
field. -/
def Obligations.DoubleAIsFieldDoubling : Prop :=
  (∀ (p : Ticket) (x : CtA),
    (doubleA p x).val = BitVec.ofNat 8 (2 * x.val.toNat % 256) ^^^ BitVec.ofNat 8 (0x1B * (x.val.toNat / 128))) ∧
  (∀ (p : Ticket) (x : CtA), (doubleA p x).val = Reference.gfMul 2 x.val) ∧
  ∀ (p q : Ticket) (x y : CtA), (doubleA p x).val = (doubleA q y).val → x.val = y.val

/-- R168: the doubling unit of engine B obeys the law bit by bit whatever KF and KT denote, and is that of engine A when
they denote 0 and 1. -/
def Obligations.DoubleBObeysItsBitLaw : Prop :=
  ∀ (kf kt : CtB) (p : Ticket) (x : BvByte),
    (∀ k : Fin 8, (doubleB kf kt p x)[k].val =
      Bool.xor (if k.val = 0 then kf.val else (BvByte.val x).getLsbD (k.val - 1))
        (if x[7].val then (if k.val ∈ [0, 1, 3, 4] then kt.val else kf.val) else kf.val)) ∧
    (kf.val = false → kt.val = true →
      BvByte.val (doubleB kf kt p x) = BitVec.ofNat 8 (2 * (BvByte.val x).toNat % 256) ^^^
        BitVec.ofNat 8 (0x1B * ((BvByte.val x).toNat / 128)))

/-- R127: the column function of engine A follows its formula, which is the product with the matrix
2 3 1 1 / 1 2 3 1 / 1 1 2 3 / 3 1 1 2 in GF(2^8), and maps a column of equal bytes to itself. -/
def Obligations.ColumnFunctionIsTheMatrixProduct : Prop :=
  ∀ (p : Ticket) (b : Vector CtA 4),
    (∀ k : Fin 4, (mixColumnA p b)[k].val = Reference.double b[k].val ^^^ b[k + 3].val ^^^ b[k + 2].val ^^^
      Reference.double b[k + 1].val ^^^ b[k + 1].val) ∧
    (∀ k : Fin 4, (mixColumnA p b)[k].val = Reference.mdsRow (denoteA b) k) ∧
    ∀ v : Byte, (∀ k : Fin 4, b[k].val = v) → ∀ k : Fin 4, (mixColumnA p b)[k].val = v

/-- R101, R204: the 40 commands of ENCSEQ leave the same denoted values in ST as ENCBLK, on both engines. That the host's
next commands stand in the field `input` is the model's choice (log entry 7). -/
def Obligations.EncseqEqualsEncblk : Prop :=
  (∀ (s t : State) (rest : List HostInput), s.input = encseqA.map present ++ rest → s.primfail = false →
    inPlaceRefusal s s.a false true false true = none → exec .encblkA s = .next t →
    ∃ u : State, Host.Core.run Sys2Proof.core 40 s = .next u ∧ u.input = rest ∧ u.response = some (.ok .empty) ∧
      denoteA u.a.st = denoteA t.a.st) ∧
  (∀ (s t : State) (rest : List HostInput), s.input = encseqB.map present ++ rest → s.primfail = false →
    inPlaceRefusal s s.b false true true true = none → exec .encblkB s = .next t →
    ∃ u : State, Host.Core.run Sys2Proof.core 40 s = .next u ∧ u.input = rest ∧ u.response = some (.ok .empty) ∧
      denoteB u.b.st = denoteB t.b.st)

/-- R205: on each engine, with the schedule of a key K loaded (and, on engine B, the host duty on the constants), ENCBLK
leaves the AES-128 encryption of the block under K, so the same 16 bytes on both. No premise of one engine's half is about
the other engine. -/
def Obligations.BothEnginesComputeAes128 : Prop :=
  ∀ (key block : Vector Byte 16) (s t : State),
    (s.fixedSbox → denoteA s.a.rk = Reference.keyExpansion key → denoteA s.a.st = block →
      exec .encblkA s = .next t → t.response = some (.ok .empty) → denoteA t.a.st = Reference.aes128 key block) ∧
    (s.konstDuty → denoteB s.b.rk = Reference.keyExpansion key → denoteB s.b.st = block →
      exec .encblkB s = .next t → t.response = some (.ok .empty) → denoteB t.b.st = Reference.aes128 key block)

/-- R223: under the host duties on the counter material and the constants, CTR.B gives the denoted blocks that CTR.A gives
on the same denoted inputs. -/
def Obligations.CtrAgreesOnBothEngines : Prop :=
  ∀ (n : Nat) (s ta tb : State), s.StorageInv → s.fixedSbox → s.konstDuty → s.counterDuty n →
    denoteA s.a.rk = denoteB s.b.rk → denoteA s.a.iv = denoteB s.b.iv →
    (∀ i < n, denoteA (s.ptA i) = denoteB (s.ptB i)) →
    exec (.ctrA n) s = .next ta → ta.response = some (.ok .empty) →
    exec (.ctrB n) s = .next tb → tb.response = some (.ok .empty) →
    ∀ i < n, denoteA (ta.outA i) = denoteB (tb.outB i)

/-- R224: a CTR of more than 256 blocks is legal, and after it the keystream of block `i + 256` is that of block `i`; on
engine B under the host duty on the counter material. -/
def Obligations.CounterWrapRepeatsTheKeystream : Prop :=
  (∀ (n : Nat) (s : State), n > 256 → s.primfail = false →
    (ctrRefusalA s n = none → ∃ t, exec (.ctrA n) s = .next t ∧ t.response = some (.ok .empty)) ∧
    (ctrRefusalB s n = none → ∃ t, exec (.ctrB n) s = .next t ∧ t.response = some (.ok .empty))) ∧
  (∀ (n : Nat) (s t : State), s.StorageInv → s.fixedSbox → exec (.ctrA n) s = .next t → t.response = some (.ok .empty) →
    ∀ i, i + 256 < n → ∀ j : Fin 16,
      (denoteA (t.outA i))[j] ^^^ (denoteA (s.ptA i))[j] =
        (denoteA (t.outA (i + 256)))[j] ^^^ (denoteA (s.ptA (i + 256)))[j]) ∧
  (∀ (n : Nat) (s t : State), s.StorageInv → s.counterDuty n → exec (.ctrB n) s = .next t →
    t.response = some (.ok .empty) →
    ∀ i, i + 256 < n → ∀ j : Fin 16,
      (denoteB (t.outB i))[j] ^^^ (denoteB (s.ptB i))[j] =
        (denoteB (t.outB (i + 256)))[j] ^^^ (denoteB (s.ptB (i + 256)))[j])

/-- R220, R226: block `i` of the output depends only on `i`, slots 0 to 13 of the IV, the schedule, input block `i` and,
on engine B, counter entries `i` and the constants: not on N, on another block, or on slots 14 and 15 of the IV. -/
def Obligations.CtrBlocksAreIndependent : Prop :=
  (∀ (n n' i : Nat) (s s' t t' : State), s.StorageInv → s'.StorageInv → s.fixedSbox → s'.fixedSbox →
    denoteA s.a.rk = denoteA s'.a.rk → (∀ j : Fin 16, j.val < 14 → s.a.iv[j].val = s'.a.iv[j].val) →
    denoteA (s.ptA i) = denoteA (s'.ptA i) → i < n → i < n' →
    exec (.ctrA n) s = .next t → t.response = some (.ok .empty) →
    exec (.ctrA n') s' = .next t' → t'.response = some (.ok .empty) →
    denoteA (t.outA i) = denoteA (t'.outA i)) ∧
  (∀ (n n' i : Nat) (s s' t t' : State), s.StorageInv → s'.StorageInv → denoteB s.b.rk = denoteB s'.b.rk →
    (∀ j : Fin 16, j.val < 14 → BvByte.val s.b.iv[j] = BvByte.val s'.b.iv[j]) →
    BvByte.val (s.cmlo i) = BvByte.val (s'.cmlo i) → BvByte.val (s.cmhi i) = BvByte.val (s'.cmhi i) →
    s.bx.kf.val = s'.bx.kf.val → s.bx.kt.val = s'.bx.kt.val →
    denoteB (s.ptB i) = denoteB (s'.ptB i) → i < n → i < n' →
    exec (.ctrB n) s = .next t → t.response = some (.ok .empty) →
    exec (.ctrB n') s' = .next t' → t'.response = some (.ok .empty) →
    denoteB (t.outB i) = denoteB (t'.outB i))

/-- R230: CTR is its own inverse on the data: with the output of one CTR as the input of another under the same IV and
schedule (and, on engine B, counter material and constants), the output denotes the first input. -/
def Obligations.CtrIsItsOwnInverse : Prop :=
  (∀ (n : Nat) (s s' t t' : State), s.StorageInv → s'.StorageInv → s.fixedSbox → s'.fixedSbox →
    denoteA s.a.rk = denoteA s'.a.rk → denoteA s.a.iv = denoteA s'.a.iv →
    exec (.ctrA n) s = .next t → t.response = some (.ok .empty) →
    (∀ i < n, denoteA (s'.ptA i) = denoteA (t.outA i)) →
    exec (.ctrA n) s' = .next t' → t'.response = some (.ok .empty) →
    ∀ i < n, denoteA (t'.outA i) = denoteA (s.ptA i)) ∧
  (∀ (n : Nat) (s s' t t' : State), s.StorageInv → s'.StorageInv → denoteB s.b.rk = denoteB s'.b.rk →
    denoteB s.b.iv = denoteB s'.b.iv → s.bx.kf.val = s'.bx.kf.val → s.bx.kt.val = s'.bx.kt.val →
    (∀ i < n, BvByte.val (s.cmlo i) = BvByte.val (s'.cmlo i) ∧ BvByte.val (s.cmhi i) = BvByte.val (s'.cmhi i)) →
    exec (.ctrB n) s = .next t → t.response = some (.ok .empty) →
    (∀ i < n, denoteB (s'.ptB i) = denoteB (t.outB i)) →
    exec (.ctrB n) s' = .next t' → t'.response = some (.ok .empty) →
    ∀ i < n, denoteB (t'.outB i) = denoteB (s.ptB i))
end

