-- ==== Sys2Proof/Laws/Memory.lean ====
section
/-! SUPPORT. Storage arrays: what a read after a write gives, and that every operation keeps the canonical form. -/

namespace Sys2Proof.Machine

variable {α : Type} [DecidableEq α] {d : α}

omit [DecidableEq α] in
@[simp] theorem Memory.read_nil (i : Nat) : Memory.read d ([] : Memory α) i = d := rfl

omit [DecidableEq α] in
/-- An index below every listed one reads as an unlisted one. -/
theorem Memory.read_of_lt (m : Memory α) (i : Nat) (h : ∀ e ∈ m, i < e.1) : Memory.read d m i = d := by
  induction m with
  | nil => rfl
  | cons e m ih =>
    have h1 := h e (by simp)
    simp only [Memory.read]
    rw [if_neg (by omega)]
    exact ih fun e' he' => h e' (by simp [he'])

theorem Memory.wf_tail {e : Nat × α} {m : Memory α} (h : Memory.wf d (e :: m)) : Memory.wf d m :=
  ⟨(List.pairwise_cons.1 h.1).2, fun x hx => h.2 x (by simp [hx])⟩

theorem Memory.wf_head_lt {e : Nat × α} {m : Memory α} (h : Memory.wf d (e :: m)) : ∀ x ∈ m, e.1 < x.1 := fun x hx =>
  (List.pairwise_cons.1 h.1).1 x.1 (List.mem_map_of_mem hx)

/-- A read after a write gives the value written at its index and the old value elsewhere. -/
theorem Memory.read_write (m : Memory α) (h : Memory.wf d m) (i k : Nat) (v : α) :
    Memory.read d (Memory.write d m i v) k = if k = i then v else Memory.read d m k := by
  induction m with
  | nil => by_cases hv : v = d <;> simp [Memory.write, Memory.read, hv]
  | cons e m ih =>
    obtain ⟨j, w⟩ := e
    have hlt := Memory.wf_head_lt h
    have ih := ih (Memory.wf_tail h)
    have below : ∀ q, q ≤ j → Memory.read d m q = d := fun q hq =>
      Memory.read_of_lt m q fun x hx => Nat.lt_of_le_of_lt hq (hlt x hx)
    simp only [Memory.write]
    split
    · by_cases hv : v = d
      · by_cases hk : k = i
        · subst hk; rw [if_pos hv, if_pos rfl, hv]
          simp only [Memory.read]; rw [if_neg (by omega)]; exact below k (by omega)
        · rw [if_pos hv, if_neg hk]
      · rw [if_neg hv]; simp only [Memory.read]
    · split
      · next hij =>
        by_cases hv : v = d
        · by_cases hk : k = i
          · subst hk; rw [if_pos hv, if_pos rfl, hv]; exact below k (by omega)
          · rw [if_pos hv, if_neg hk]; simp only [Memory.read]; rw [if_neg (by omega)]
        · rw [if_neg hv]; simp only [Memory.read]
          by_cases hk : k = i
          · simp [hk]
          · rw [if_neg hk, if_neg hk, if_neg (by omega)]
      · simp only [Memory.read]
        by_cases hk : k = j
        · subst hk; simp; omega
        · rw [if_neg hk, ih]; simp only [if_neg hk]

/-- Every entry after a write is an old one or the new one. -/
theorem Memory.mem_write {m : Memory α} {i : Nat} {v : α} {e : Nat × α} (h : e ∈ Memory.write d m i v) :
    e ∈ m ∨ e = (i, v) ∧ v ≠ d := by
  induction m with
  | nil =>
    by_cases hv : v = d
    · simp [Memory.write, hv] at h
    · simp [Memory.write, hv] at h; exact .inr ⟨h, hv⟩
  | cons x m ih =>
    obtain ⟨j, w⟩ := x
    simp only [Memory.write] at h
    split at h
    · split at h
      · exact .inl h
      · next hv => rcases List.mem_cons.1 h with rfl | h
                   · exact .inr ⟨rfl, hv⟩
                   · exact .inl h
    · split at h
      · split at h
        · exact .inl (List.mem_cons_of_mem _ h)
        · next hv => rcases List.mem_cons.1 h with rfl | h
                     · exact .inr ⟨rfl, hv⟩
                     · exact .inl (List.mem_cons_of_mem _ h)
      · rcases List.mem_cons.1 h with rfl | h
        · exact .inl (List.mem_cons_self ..)
        · exact (ih h).imp_left (List.mem_cons_of_mem _)

/-- A write keeps the canonical form. -/
theorem Memory.write_wf {m : Memory α} (h : Memory.wf d m) (i : Nat) (v : α) : Memory.wf d (Memory.write d m i v) := by
  refine ⟨?_, fun e he => (Memory.mem_write he).elim (h.2 e) fun he => he.1 ▸ he.2⟩
  induction m with
  | nil => by_cases hv : v = d <;> simp [Memory.write, hv]
  | cons x m ih =>
    obtain ⟨j, w⟩ := x
    have hlt := Memory.wf_head_lt h
    have hm := (Memory.wf_tail h).1
    have cons : ∀ (k : Nat) (u : α) (l : Memory α), (l.map Prod.fst).Pairwise (· < ·) → (∀ y ∈ l, k < y.1) →
        (((k, u) :: l).map Prod.fst).Pairwise (· < ·) := fun k u l hl hk =>
      List.pairwise_cons.2 ⟨fun b hb => by obtain ⟨y, hy, rfl⟩ := List.mem_map.1 hb; exact hk y hy, hl⟩
    simp only [Memory.write]
    split
    · split
      · exact h.1
      · refine cons _ _ _ h.1 fun y hy => ?_
        rcases List.mem_cons.1 hy with rfl | hy
        · assumption
        · exact Nat.lt_trans (by assumption) (hlt y hy)
    · split
      · split
        · exact hm
        · exact cons _ _ _ hm fun y hy => by have := hlt y hy; omega
      · refine cons _ _ _ (ih (Memory.wf_tail h)) fun y hy => ?_
        rcases Memory.mem_write hy with hy | ⟨rfl, -⟩
        · exact hlt y hy
        · simp only; omega

/-- Filling `n + 1` entries is filling `n` and writing the last. -/
theorem Memory.fill_succ (m : Memory α) (n : Nat) (f : Nat → α) :
    Memory.fill d m (n + 1) f = Memory.write d (Memory.fill d m n f) n (f n) := by
  simp [Memory.fill, List.range_succ]

/-- Filling keeps the canonical form. -/
theorem Memory.fill_wf {m : Memory α} (h : Memory.wf d m) (n : Nat) (f : Nat → α) : Memory.wf d (Memory.fill d m n f) := by
  induction n with
  | zero => exact h
  | succ n ih => rw [Memory.fill_succ]; exact Memory.write_wf ih _ _

/-- A read after a fill gives the value filled in below `n` and the old value from `n` on. -/
theorem Memory.read_fill {m : Memory α} (h : Memory.wf d m) (n : Nat) (f : Nat → α) (k : Nat) :
    Memory.read d (Memory.fill d m n f) k = if k < n then f k else Memory.read d m k := by
  induction n with
  | zero => rfl
  | succ n ih =>
    rw [Memory.fill_succ, Memory.read_write _ (Memory.fill_wf h n f), ih]
    by_cases hk : k = n
    · subst hk; simp
    · rw [if_neg hk]; by_cases hlt : k < n
      · rw [if_pos hlt, if_pos (by omega)]
      · rw [if_neg hlt, if_neg (by omega)]

/-- Every entry after a fill is an old one or lies below `n`. -/
theorem Memory.mem_fill {m : Memory α} {n : Nat} {f : Nat → α} {e : Nat × α} (h : e ∈ Memory.fill d m n f) :
    e ∈ m ∨ e.1 < n := by
  induction n with
  | zero => exact .inl h
  | succ n ih =>
    rw [Memory.fill_succ] at h
    rcases Memory.mem_write h with h | ⟨rfl, -⟩
    · exact (ih h).imp_right fun h => by omega
    · exact .inr (Nat.lt_succ_self n)

end Sys2Proof.Machine
end

