-- ==== Sys2Proof/Laws/State.lean ====
section
/-! SUPPORT. One lemma per field per update of the state, true by rfl, so that no proof unfolds a record update. -/

namespace Sys2Proof.Machine

section StateUpdates
variable (s : State)

/-! `State.onA`. -/

@[simp] theorem State.onA_a (f : Engine CtA → Engine CtA) : (s.onA f).a = f s.a := rfl
@[simp] theorem State.onA_b (f : Engine CtA → Engine CtA) : (s.onA f).b = s.b := rfl
@[simp] theorem State.onA_bx (f : Engine CtA → Engine CtA) : (s.onA f).bx = s.bx := rfl
@[simp] theorem State.onA_sbox (f : Engine CtA → Engine CtA) : (s.onA f).sbox = s.sbox := rfl
@[simp] theorem State.onA_tblok (f : Engine CtA → Engine CtA) : (s.onA f).tblok = s.tblok := rfl
@[simp] theorem State.onA_cap (f : Engine CtA → Engine CtA) : (s.onA f).cap = s.cap := rfl
@[simp] theorem State.onA_input (f : Engine CtA → Engine CtA) : (s.onA f).input = s.input := rfl
@[simp] theorem State.onA_payload (f : Engine CtA → Engine CtA) : (s.onA f).payload = s.payload := rfl
@[simp] theorem State.onA_primfail (f : Engine CtA → Engine CtA) : (s.onA f).primfail = s.primfail := rfl
@[simp] theorem State.onA_response (f : Engine CtA → Engine CtA) : (s.onA f).response = s.response := rfl
@[simp] theorem State.onA_fresh (f : Engine CtA → Engine CtA) : (s.onA f).fresh = s.fresh := rfl

/-! `State.onB`. -/

@[simp] theorem State.onB_a (f : Engine BvByte → Engine BvByte) : (s.onB f).a = s.a := rfl
@[simp] theorem State.onB_b (f : Engine BvByte → Engine BvByte) : (s.onB f).b = f s.b := rfl
@[simp] theorem State.onB_bx (f : Engine BvByte → Engine BvByte) : (s.onB f).bx = s.bx := rfl
@[simp] theorem State.onB_sbox (f : Engine BvByte → Engine BvByte) : (s.onB f).sbox = s.sbox := rfl
@[simp] theorem State.onB_tblok (f : Engine BvByte → Engine BvByte) : (s.onB f).tblok = s.tblok := rfl
@[simp] theorem State.onB_cap (f : Engine BvByte → Engine BvByte) : (s.onB f).cap = s.cap := rfl
@[simp] theorem State.onB_input (f : Engine BvByte → Engine BvByte) : (s.onB f).input = s.input := rfl
@[simp] theorem State.onB_payload (f : Engine BvByte → Engine BvByte) : (s.onB f).payload = s.payload := rfl
@[simp] theorem State.onB_primfail (f : Engine BvByte → Engine BvByte) : (s.onB f).primfail = s.primfail := rfl
@[simp] theorem State.onB_response (f : Engine BvByte → Engine BvByte) : (s.onB f).response = s.response := rfl
@[simp] theorem State.onB_fresh (f : Engine BvByte → Engine BvByte) : (s.onB f).fresh = s.fresh := rfl

/-! `State.onBx`. -/

@[simp] theorem State.onBx_a (f : BoolStore → BoolStore) : (s.onBx f).a = s.a := rfl
@[simp] theorem State.onBx_b (f : BoolStore → BoolStore) : (s.onBx f).b = s.b := rfl
@[simp] theorem State.onBx_bx (f : BoolStore → BoolStore) : (s.onBx f).bx = f s.bx := rfl
@[simp] theorem State.onBx_sbox (f : BoolStore → BoolStore) : (s.onBx f).sbox = s.sbox := rfl
@[simp] theorem State.onBx_tblok (f : BoolStore → BoolStore) : (s.onBx f).tblok = s.tblok := rfl
@[simp] theorem State.onBx_cap (f : BoolStore → BoolStore) : (s.onBx f).cap = s.cap := rfl
@[simp] theorem State.onBx_input (f : BoolStore → BoolStore) : (s.onBx f).input = s.input := rfl
@[simp] theorem State.onBx_payload (f : BoolStore → BoolStore) : (s.onBx f).payload = s.payload := rfl
@[simp] theorem State.onBx_primfail (f : BoolStore → BoolStore) : (s.onBx f).primfail = s.primfail := rfl
@[simp] theorem State.onBx_response (f : BoolStore → BoolStore) : (s.onBx f).response = s.response := rfl
@[simp] theorem State.onBx_fresh (f : BoolStore → BoolStore) : (s.onBx f).fresh = s.fresh := rfl

/-! `State.respond`. -/

@[simp] theorem State.respond_a (r : Response) : (s.respond r).a = s.a := rfl
@[simp] theorem State.respond_b (r : Response) : (s.respond r).b = s.b := rfl
@[simp] theorem State.respond_bx (r : Response) : (s.respond r).bx = s.bx := rfl
@[simp] theorem State.respond_sbox (r : Response) : (s.respond r).sbox = s.sbox := rfl
@[simp] theorem State.respond_tblok (r : Response) : (s.respond r).tblok = s.tblok := rfl
@[simp] theorem State.respond_cap (r : Response) : (s.respond r).cap = s.cap := rfl
@[simp] theorem State.respond_input (r : Response) : (s.respond r).input = s.input := rfl
@[simp] theorem State.respond_payload (r : Response) : (s.respond r).payload = [] := rfl
@[simp] theorem State.respond_primfail (r : Response) : (s.respond r).primfail = false := rfl
@[simp] theorem State.respond_response (r : Response) : (s.respond r).response = some r := rfl
@[simp] theorem State.respond_fresh (r : Response) : (s.respond r).fresh = s.fresh := rfl

/-! `State.accept`. -/

@[simp] theorem State.accept_a (p : List Beat) (b : Bool) (rest : List HostInput) : (s.accept p b rest).a = s.a := rfl
@[simp] theorem State.accept_b (p : List Beat) (b : Bool) (rest : List HostInput) : (s.accept p b rest).b = s.b := rfl
@[simp] theorem State.accept_bx (p : List Beat) (b : Bool) (rest : List HostInput) : (s.accept p b rest).bx = s.bx := rfl
@[simp] theorem State.accept_sbox (p : List Beat) (b : Bool) (rest : List HostInput) : (s.accept p b rest).sbox = s.sbox := rfl
@[simp] theorem State.accept_tblok (p : List Beat) (b : Bool) (rest : List HostInput) : (s.accept p b rest).tblok = s.tblok := rfl
@[simp] theorem State.accept_cap (p : List Beat) (b : Bool) (rest : List HostInput) : (s.accept p b rest).cap = s.cap := rfl
@[simp] theorem State.accept_input (p : List Beat) (b : Bool) (rest : List HostInput) : (s.accept p b rest).input = rest := rfl
@[simp] theorem State.accept_payload (p : List Beat) (b : Bool) (rest : List HostInput) : (s.accept p b rest).payload = p := rfl
@[simp] theorem State.accept_primfail (p : List Beat) (b : Bool) (rest : List HostInput) : (s.accept p b rest).primfail = b := rfl
@[simp] theorem State.accept_response (p : List Beat) (b : Bool) (rest : List HostInput) : (s.accept p b rest).response = s.response := rfl
@[simp] theorem State.accept_fresh (p : List Beat) (b : Bool) (rest : List HostInput) : (s.accept p b rest).fresh = s.fresh := rfl

/-! `State.resetA`. -/

@[simp] theorem State.resetA_a : (s.resetA).a = s.a.reset := rfl
@[simp] theorem State.resetA_b : (s.resetA).b = s.b := rfl
@[simp] theorem State.resetA_bx : (s.resetA).bx = s.bx := rfl
@[simp] theorem State.resetA_sbox : (s.resetA).sbox = s.sbox := rfl
@[simp] theorem State.resetA_tblok : (s.resetA).tblok = tableCheck s.sbox := rfl
@[simp] theorem State.resetA_cap : (s.resetA).cap = s.cap := rfl
@[simp] theorem State.resetA_input : (s.resetA).input = s.input := rfl
@[simp] theorem State.resetA_payload : (s.resetA).payload = s.payload := rfl
@[simp] theorem State.resetA_primfail : (s.resetA).primfail = s.primfail := rfl
@[simp] theorem State.resetA_response : (s.resetA).response = s.response := rfl
@[simp] theorem State.resetA_fresh : (s.resetA).fresh = s.fresh := rfl

/-! `State.resetB`. -/

@[simp] theorem State.resetB_a : (s.resetB).a = s.a := rfl
@[simp] theorem State.resetB_b : (s.resetB).b = s.b.reset := rfl
@[simp] theorem State.resetB_bx : (s.resetB).bx = s.bx.reset := rfl
@[simp] theorem State.resetB_sbox : (s.resetB).sbox = s.sbox := rfl
@[simp] theorem State.resetB_tblok : (s.resetB).tblok = tableCheck s.sbox := rfl
@[simp] theorem State.resetB_cap : (s.resetB).cap = s.cap := rfl
@[simp] theorem State.resetB_input : (s.resetB).input = s.input := rfl
@[simp] theorem State.resetB_payload : (s.resetB).payload = s.payload := rfl
@[simp] theorem State.resetB_primfail : (s.resetB).primfail = s.primfail := rfl
@[simp] theorem State.resetB_response : (s.resetB).response = s.response := rfl
@[simp] theorem State.resetB_fresh : (s.resetB).fresh = s.fresh := rfl

/-! `State.hardwareReset`. -/

@[simp] theorem State.hardwareReset_a : (s.hardwareReset).a = s.a.reset := rfl
@[simp] theorem State.hardwareReset_b : (s.hardwareReset).b = s.b.reset := rfl
@[simp] theorem State.hardwareReset_bx : (s.hardwareReset).bx = s.bx.reset := rfl
@[simp] theorem State.hardwareReset_sbox : (s.hardwareReset).sbox = s.sbox := rfl
@[simp] theorem State.hardwareReset_tblok : (s.hardwareReset).tblok = tableCheck s.sbox := rfl
@[simp] theorem State.hardwareReset_cap : (s.hardwareReset).cap = s.cap := rfl
@[simp] theorem State.hardwareReset_input : (s.hardwareReset).input = s.input := rfl
@[simp] theorem State.hardwareReset_payload : (s.hardwareReset).payload = [] := rfl
@[simp] theorem State.hardwareReset_primfail : (s.hardwareReset).primfail = false := rfl
@[simp] theorem State.hardwareReset_response : (s.hardwareReset).response = none := rfl
@[simp] theorem State.hardwareReset_fresh : (s.hardwareReset).fresh = s.fresh := rfl

/-! `State.completed`. -/

@[simp] theorem State.completed_a (d : RespData) : (s.completed d).a = s.a := rfl
@[simp] theorem State.completed_b (d : RespData) : (s.completed d).b = s.b := rfl
@[simp] theorem State.completed_bx (d : RespData) : (s.completed d).bx = s.bx := rfl
@[simp] theorem State.completed_sbox (d : RespData) : (s.completed d).sbox = s.sbox := rfl
@[simp] theorem State.completed_tblok (d : RespData) : (s.completed d).tblok = s.tblok := rfl
@[simp] theorem State.completed_cap (d : RespData) : (s.completed d).cap = s.cap := rfl
@[simp] theorem State.completed_input (d : RespData) : (s.completed d).input = s.input := rfl
@[simp] theorem State.completed_payload (d : RespData) : (s.completed d).payload = [] := rfl
@[simp] theorem State.completed_primfail (d : RespData) : (s.completed d).primfail = false := rfl
@[simp] theorem State.completed_response (d : RespData) : (s.completed d).response = some (.ok d) := rfl
@[simp] theorem State.completed_fresh (d : RespData) : (s.completed d).fresh = s.fresh := rfl

end StateUpdates

section EngineUpdates
variable {α : Type} (e : Engine α)

/-! `Engine.putSt`. -/

@[simp] theorem Engine.putSt_st (b : Block α) : (Engine.putSt b e).st = b := rfl
@[simp] theorem Engine.putSt_stv (b : Block α) : (Engine.putSt b e).stv = e.stv := rfl
@[simp] theorem Engine.putSt_iv (b : Block α) : (Engine.putSt b e).iv = e.iv := rfl
@[simp] theorem Engine.putSt_ivv (b : Block α) : (Engine.putSt b e).ivv = e.ivv := rfl
@[simp] theorem Engine.putSt_rk (b : Block α) : (Engine.putSt b e).rk = e.rk := rfl
@[simp] theorem Engine.putSt_rkv (b : Block α) : (Engine.putSt b e).rkv = e.rkv := rfl
@[simp] theorem Engine.putSt_pt (b : Block α) : (Engine.putSt b e).pt = e.pt := rfl
@[simp] theorem Engine.putSt_ptv (b : Block α) : (Engine.putSt b e).ptv = e.ptv := rfl
@[simp] theorem Engine.putSt_out (b : Block α) : (Engine.putSt b e).out = e.out := rfl
@[simp] theorem Engine.putSt_outn (b : Block α) : (Engine.putSt b e).outn = e.outn := rfl
@[simp] theorem Engine.putSt_ekv (b : Block α) : (Engine.putSt b e).ekv = e.ekv := rfl
@[simp] theorem Engine.putSt_wrap (b : Block α) : (Engine.putSt b e).wrap = e.wrap := rfl
@[simp] theorem Engine.putSt_err (b : Block α) : (Engine.putSt b e).err = e.err := rfl
@[simp] theorem Engine.putSt_errcode (b : Block α) : (Engine.putSt b e).errcode = e.errcode := rfl

/-! `Engine.loadSt`. -/

@[simp] theorem Engine.loadSt_st (b : Block α) : (Engine.loadSt b e).st = b := rfl
@[simp] theorem Engine.loadSt_stv (b : Block α) : (Engine.loadSt b e).stv = true := rfl
@[simp] theorem Engine.loadSt_iv (b : Block α) : (Engine.loadSt b e).iv = e.iv := rfl
@[simp] theorem Engine.loadSt_ivv (b : Block α) : (Engine.loadSt b e).ivv = e.ivv := rfl
@[simp] theorem Engine.loadSt_rk (b : Block α) : (Engine.loadSt b e).rk = e.rk := rfl
@[simp] theorem Engine.loadSt_rkv (b : Block α) : (Engine.loadSt b e).rkv = e.rkv := rfl
@[simp] theorem Engine.loadSt_pt (b : Block α) : (Engine.loadSt b e).pt = e.pt := rfl
@[simp] theorem Engine.loadSt_ptv (b : Block α) : (Engine.loadSt b e).ptv = e.ptv := rfl
@[simp] theorem Engine.loadSt_out (b : Block α) : (Engine.loadSt b e).out = e.out := rfl
@[simp] theorem Engine.loadSt_outn (b : Block α) : (Engine.loadSt b e).outn = e.outn := rfl
@[simp] theorem Engine.loadSt_ekv (b : Block α) : (Engine.loadSt b e).ekv = e.ekv := rfl
@[simp] theorem Engine.loadSt_wrap (b : Block α) : (Engine.loadSt b e).wrap = e.wrap := rfl
@[simp] theorem Engine.loadSt_err (b : Block α) : (Engine.loadSt b e).err = e.err := rfl
@[simp] theorem Engine.loadSt_errcode (b : Block α) : (Engine.loadSt b e).errcode = e.errcode := rfl

/-! `Engine.loadIv`. -/

@[simp] theorem Engine.loadIv_st (b : Block α) : (Engine.loadIv b e).st = e.st := rfl
@[simp] theorem Engine.loadIv_stv (b : Block α) : (Engine.loadIv b e).stv = e.stv := rfl
@[simp] theorem Engine.loadIv_iv (b : Block α) : (Engine.loadIv b e).iv = b := rfl
@[simp] theorem Engine.loadIv_ivv (b : Block α) : (Engine.loadIv b e).ivv = true := rfl
@[simp] theorem Engine.loadIv_rk (b : Block α) : (Engine.loadIv b e).rk = e.rk := rfl
@[simp] theorem Engine.loadIv_rkv (b : Block α) : (Engine.loadIv b e).rkv = e.rkv := rfl
@[simp] theorem Engine.loadIv_pt (b : Block α) : (Engine.loadIv b e).pt = e.pt := rfl
@[simp] theorem Engine.loadIv_ptv (b : Block α) : (Engine.loadIv b e).ptv = e.ptv := rfl
@[simp] theorem Engine.loadIv_out (b : Block α) : (Engine.loadIv b e).out = e.out := rfl
@[simp] theorem Engine.loadIv_outn (b : Block α) : (Engine.loadIv b e).outn = e.outn := rfl
@[simp] theorem Engine.loadIv_ekv (b : Block α) : (Engine.loadIv b e).ekv = e.ekv := rfl
@[simp] theorem Engine.loadIv_wrap (b : Block α) : (Engine.loadIv b e).wrap = e.wrap := rfl
@[simp] theorem Engine.loadIv_err (b : Block α) : (Engine.loadIv b e).err = e.err := rfl
@[simp] theorem Engine.loadIv_errcode (b : Block α) : (Engine.loadIv b e).errcode = e.errcode := rfl

/-! `Engine.loadRk`. -/

@[simp] theorem Engine.loadRk_st (k : Schedule α) : (Engine.loadRk k e).st = e.st := rfl
@[simp] theorem Engine.loadRk_stv (k : Schedule α) : (Engine.loadRk k e).stv = e.stv := rfl
@[simp] theorem Engine.loadRk_iv (k : Schedule α) : (Engine.loadRk k e).iv = e.iv := rfl
@[simp] theorem Engine.loadRk_ivv (k : Schedule α) : (Engine.loadRk k e).ivv = e.ivv := rfl
@[simp] theorem Engine.loadRk_rk (k : Schedule α) : (Engine.loadRk k e).rk = k := rfl
@[simp] theorem Engine.loadRk_rkv (k : Schedule α) : (Engine.loadRk k e).rkv = true := rfl
@[simp] theorem Engine.loadRk_pt (k : Schedule α) : (Engine.loadRk k e).pt = e.pt := rfl
@[simp] theorem Engine.loadRk_ptv (k : Schedule α) : (Engine.loadRk k e).ptv = e.ptv := rfl
@[simp] theorem Engine.loadRk_out (k : Schedule α) : (Engine.loadRk k e).out = e.out := rfl
@[simp] theorem Engine.loadRk_outn (k : Schedule α) : (Engine.loadRk k e).outn = e.outn := rfl
@[simp] theorem Engine.loadRk_ekv (k : Schedule α) : (Engine.loadRk k e).ekv = e.ekv := rfl
@[simp] theorem Engine.loadRk_wrap (k : Schedule α) : (Engine.loadRk k e).wrap = e.wrap := rfl
@[simp] theorem Engine.loadRk_err (k : Schedule α) : (Engine.loadRk k e).err = e.err := rfl
@[simp] theorem Engine.loadRk_errcode (k : Schedule α) : (Engine.loadRk k e).errcode = e.errcode := rfl

/-! `Engine.loadPt`. -/

@[simp] theorem Engine.loadPt_st [DecidableEq α] (d : Block α) (i : Nat) (b : Block α) : (Engine.loadPt d i b e).st = e.st := rfl
@[simp] theorem Engine.loadPt_stv [DecidableEq α] (d : Block α) (i : Nat) (b : Block α) : (Engine.loadPt d i b e).stv = e.stv := rfl
@[simp] theorem Engine.loadPt_iv [DecidableEq α] (d : Block α) (i : Nat) (b : Block α) : (Engine.loadPt d i b e).iv = e.iv := rfl
@[simp] theorem Engine.loadPt_ivv [DecidableEq α] (d : Block α) (i : Nat) (b : Block α) : (Engine.loadPt d i b e).ivv = e.ivv := rfl
@[simp] theorem Engine.loadPt_rk [DecidableEq α] (d : Block α) (i : Nat) (b : Block α) : (Engine.loadPt d i b e).rk = e.rk := rfl
@[simp] theorem Engine.loadPt_rkv [DecidableEq α] (d : Block α) (i : Nat) (b : Block α) : (Engine.loadPt d i b e).rkv = e.rkv := rfl
@[simp] theorem Engine.loadPt_pt [DecidableEq α] (d : Block α) (i : Nat) (b : Block α) : (Engine.loadPt d i b e).pt = Memory.write d e.pt i b := rfl
@[simp] theorem Engine.loadPt_ptv [DecidableEq α] (d : Block α) (i : Nat) (b : Block α) : (Engine.loadPt d i b e).ptv = Memory.write false e.ptv i true := rfl
@[simp] theorem Engine.loadPt_out [DecidableEq α] (d : Block α) (i : Nat) (b : Block α) : (Engine.loadPt d i b e).out = e.out := rfl
@[simp] theorem Engine.loadPt_outn [DecidableEq α] (d : Block α) (i : Nat) (b : Block α) : (Engine.loadPt d i b e).outn = e.outn := rfl
@[simp] theorem Engine.loadPt_ekv [DecidableEq α] (d : Block α) (i : Nat) (b : Block α) : (Engine.loadPt d i b e).ekv = e.ekv := rfl
@[simp] theorem Engine.loadPt_wrap [DecidableEq α] (d : Block α) (i : Nat) (b : Block α) : (Engine.loadPt d i b e).wrap = e.wrap := rfl
@[simp] theorem Engine.loadPt_err [DecidableEq α] (d : Block α) (i : Nat) (b : Block α) : (Engine.loadPt d i b e).err = e.err := rfl
@[simp] theorem Engine.loadPt_errcode [DecidableEq α] (d : Block α) (i : Nat) (b : Block α) : (Engine.loadPt d i b e).errcode = e.errcode := rfl

/-! `Engine.putOut`. -/

@[simp] theorem Engine.putOut_st [DecidableEq α] (d : Block α) (n : Nat) (o : Nat → Block α) : (Engine.putOut d n o e).st = e.st := rfl
@[simp] theorem Engine.putOut_stv [DecidableEq α] (d : Block α) (n : Nat) (o : Nat → Block α) : (Engine.putOut d n o e).stv = e.stv := rfl
@[simp] theorem Engine.putOut_iv [DecidableEq α] (d : Block α) (n : Nat) (o : Nat → Block α) : (Engine.putOut d n o e).iv = e.iv := rfl
@[simp] theorem Engine.putOut_ivv [DecidableEq α] (d : Block α) (n : Nat) (o : Nat → Block α) : (Engine.putOut d n o e).ivv = e.ivv := rfl
@[simp] theorem Engine.putOut_rk [DecidableEq α] (d : Block α) (n : Nat) (o : Nat → Block α) : (Engine.putOut d n o e).rk = e.rk := rfl
@[simp] theorem Engine.putOut_rkv [DecidableEq α] (d : Block α) (n : Nat) (o : Nat → Block α) : (Engine.putOut d n o e).rkv = e.rkv := rfl
@[simp] theorem Engine.putOut_pt [DecidableEq α] (d : Block α) (n : Nat) (o : Nat → Block α) : (Engine.putOut d n o e).pt = e.pt := rfl
@[simp] theorem Engine.putOut_ptv [DecidableEq α] (d : Block α) (n : Nat) (o : Nat → Block α) : (Engine.putOut d n o e).ptv = e.ptv := rfl
@[simp] theorem Engine.putOut_out [DecidableEq α] (d : Block α) (n : Nat) (o : Nat → Block α) : (Engine.putOut d n o e).out = Memory.fill d e.out n o := rfl
@[simp] theorem Engine.putOut_outn [DecidableEq α] (d : Block α) (n : Nat) (o : Nat → Block α) : (Engine.putOut d n o e).outn = n := rfl
@[simp] theorem Engine.putOut_ekv [DecidableEq α] (d : Block α) (n : Nat) (o : Nat → Block α) : (Engine.putOut d n o e).ekv = e.ekv := rfl
@[simp] theorem Engine.putOut_wrap [DecidableEq α] (d : Block α) (n : Nat) (o : Nat → Block α) : (Engine.putOut d n o e).wrap = wrapAfter e.wrap n := rfl
@[simp] theorem Engine.putOut_err [DecidableEq α] (d : Block α) (n : Nat) (o : Nat → Block α) : (Engine.putOut d n o e).err = e.err := rfl
@[simp] theorem Engine.putOut_errcode [DecidableEq α] (d : Block α) (n : Nat) (o : Nat → Block α) : (Engine.putOut d n o e).errcode = e.errcode := rfl

/-! `Engine.attachEk`. -/

@[simp] theorem Engine.attachEk_st : (Engine.attachEk e).st = e.st := rfl
@[simp] theorem Engine.attachEk_stv : (Engine.attachEk e).stv = e.stv := rfl
@[simp] theorem Engine.attachEk_iv : (Engine.attachEk e).iv = e.iv := rfl
@[simp] theorem Engine.attachEk_ivv : (Engine.attachEk e).ivv = e.ivv := rfl
@[simp] theorem Engine.attachEk_rk : (Engine.attachEk e).rk = e.rk := rfl
@[simp] theorem Engine.attachEk_rkv : (Engine.attachEk e).rkv = e.rkv := rfl
@[simp] theorem Engine.attachEk_pt : (Engine.attachEk e).pt = e.pt := rfl
@[simp] theorem Engine.attachEk_ptv : (Engine.attachEk e).ptv = e.ptv := rfl
@[simp] theorem Engine.attachEk_out : (Engine.attachEk e).out = e.out := rfl
@[simp] theorem Engine.attachEk_outn : (Engine.attachEk e).outn = e.outn := rfl
@[simp] theorem Engine.attachEk_ekv : (Engine.attachEk e).ekv = true := rfl
@[simp] theorem Engine.attachEk_wrap : (Engine.attachEk e).wrap = e.wrap := rfl
@[simp] theorem Engine.attachEk_err : (Engine.attachEk e).err = e.err := rfl
@[simp] theorem Engine.attachEk_errcode : (Engine.attachEk e).errcode = e.errcode := rfl

/-! `Engine.dropSt`. -/

@[simp] theorem Engine.dropSt_st : (Engine.dropSt e).st = e.st := rfl
@[simp] theorem Engine.dropSt_stv : (Engine.dropSt e).stv = false := rfl
@[simp] theorem Engine.dropSt_iv : (Engine.dropSt e).iv = e.iv := rfl
@[simp] theorem Engine.dropSt_ivv : (Engine.dropSt e).ivv = e.ivv := rfl
@[simp] theorem Engine.dropSt_rk : (Engine.dropSt e).rk = e.rk := rfl
@[simp] theorem Engine.dropSt_rkv : (Engine.dropSt e).rkv = e.rkv := rfl
@[simp] theorem Engine.dropSt_pt : (Engine.dropSt e).pt = e.pt := rfl
@[simp] theorem Engine.dropSt_ptv : (Engine.dropSt e).ptv = e.ptv := rfl
@[simp] theorem Engine.dropSt_out : (Engine.dropSt e).out = e.out := rfl
@[simp] theorem Engine.dropSt_outn : (Engine.dropSt e).outn = e.outn := rfl
@[simp] theorem Engine.dropSt_ekv : (Engine.dropSt e).ekv = e.ekv := rfl
@[simp] theorem Engine.dropSt_wrap : (Engine.dropSt e).wrap = e.wrap := rfl
@[simp] theorem Engine.dropSt_err : (Engine.dropSt e).err = e.err := rfl
@[simp] theorem Engine.dropSt_errcode : (Engine.dropSt e).errcode = e.errcode := rfl

/-! `Engine.dropOut`. -/

@[simp] theorem Engine.dropOut_st : (Engine.dropOut e).st = e.st := rfl
@[simp] theorem Engine.dropOut_stv : (Engine.dropOut e).stv = e.stv := rfl
@[simp] theorem Engine.dropOut_iv : (Engine.dropOut e).iv = e.iv := rfl
@[simp] theorem Engine.dropOut_ivv : (Engine.dropOut e).ivv = e.ivv := rfl
@[simp] theorem Engine.dropOut_rk : (Engine.dropOut e).rk = e.rk := rfl
@[simp] theorem Engine.dropOut_rkv : (Engine.dropOut e).rkv = e.rkv := rfl
@[simp] theorem Engine.dropOut_pt : (Engine.dropOut e).pt = e.pt := rfl
@[simp] theorem Engine.dropOut_ptv : (Engine.dropOut e).ptv = e.ptv := rfl
@[simp] theorem Engine.dropOut_out : (Engine.dropOut e).out = e.out := rfl
@[simp] theorem Engine.dropOut_outn : (Engine.dropOut e).outn = 0 := rfl
@[simp] theorem Engine.dropOut_ekv : (Engine.dropOut e).ekv = e.ekv := rfl
@[simp] theorem Engine.dropOut_wrap : (Engine.dropOut e).wrap = e.wrap := rfl
@[simp] theorem Engine.dropOut_err : (Engine.dropOut e).err = e.err := rfl
@[simp] theorem Engine.dropOut_errcode : (Engine.dropOut e).errcode = e.errcode := rfl

/-! `Engine.reset`. -/

@[simp] theorem Engine.reset_st : (Engine.reset e).st = e.st := rfl
@[simp] theorem Engine.reset_stv : (Engine.reset e).stv = false := rfl
@[simp] theorem Engine.reset_iv : (Engine.reset e).iv = e.iv := rfl
@[simp] theorem Engine.reset_ivv : (Engine.reset e).ivv = false := rfl
@[simp] theorem Engine.reset_rk : (Engine.reset e).rk = e.rk := rfl
@[simp] theorem Engine.reset_rkv : (Engine.reset e).rkv = false := rfl
@[simp] theorem Engine.reset_pt : (Engine.reset e).pt = e.pt := rfl
@[simp] theorem Engine.reset_ptv : (Engine.reset e).ptv = [] := rfl
@[simp] theorem Engine.reset_out : (Engine.reset e).out = e.out := rfl
@[simp] theorem Engine.reset_outn : (Engine.reset e).outn = 0 := rfl
@[simp] theorem Engine.reset_ekv : (Engine.reset e).ekv = false := rfl
@[simp] theorem Engine.reset_wrap : (Engine.reset e).wrap = false := rfl
@[simp] theorem Engine.reset_err : (Engine.reset e).err = false := rfl
@[simp] theorem Engine.reset_errcode : (Engine.reset e).errcode = 0 := rfl

/-! `Engine.recordError`: all fields but the sticky pair (R31). -/

@[simp] theorem Engine.recordError_st (c : ErrCode) : (Engine.recordError c e).st = e.st := by
  unfold Engine.recordError; split <;> rfl
@[simp] theorem Engine.recordError_stv (c : ErrCode) : (Engine.recordError c e).stv = e.stv := by
  unfold Engine.recordError; split <;> rfl
@[simp] theorem Engine.recordError_iv (c : ErrCode) : (Engine.recordError c e).iv = e.iv := by
  unfold Engine.recordError; split <;> rfl
@[simp] theorem Engine.recordError_ivv (c : ErrCode) : (Engine.recordError c e).ivv = e.ivv := by
  unfold Engine.recordError; split <;> rfl
@[simp] theorem Engine.recordError_rk (c : ErrCode) : (Engine.recordError c e).rk = e.rk := by
  unfold Engine.recordError; split <;> rfl
@[simp] theorem Engine.recordError_rkv (c : ErrCode) : (Engine.recordError c e).rkv = e.rkv := by
  unfold Engine.recordError; split <;> rfl
@[simp] theorem Engine.recordError_pt (c : ErrCode) : (Engine.recordError c e).pt = e.pt := by
  unfold Engine.recordError; split <;> rfl
@[simp] theorem Engine.recordError_ptv (c : ErrCode) : (Engine.recordError c e).ptv = e.ptv := by
  unfold Engine.recordError; split <;> rfl
@[simp] theorem Engine.recordError_out (c : ErrCode) : (Engine.recordError c e).out = e.out := by
  unfold Engine.recordError; split <;> rfl
@[simp] theorem Engine.recordError_outn (c : ErrCode) : (Engine.recordError c e).outn = e.outn := by
  unfold Engine.recordError; split <;> rfl
@[simp] theorem Engine.recordError_ekv (c : ErrCode) : (Engine.recordError c e).ekv = e.ekv := by
  unfold Engine.recordError; split <;> rfl
@[simp] theorem Engine.recordError_wrap (c : ErrCode) : (Engine.recordError c e).wrap = e.wrap := by
  unfold Engine.recordError; split <;> rfl
@[simp] theorem Engine.recordError_err (c : ErrCode) : (Engine.recordError c e).err = true := by
  unfold Engine.recordError; split <;> simp_all
@[simp] theorem Engine.recordError_errcode (c : ErrCode) :
    (Engine.recordError c e).errcode = if e.err then e.errcode else c.number := by
  unfold Engine.recordError; split <;> simp_all

/-- The sticky pair after an error, as one record update (R31, R314a). -/
theorem Engine.recordError_eq (c : ErrCode) :
    Engine.recordError c e = { e with err := true, errcode := if e.err then e.errcode else c.number } := by
  unfold Engine.recordError; split
  · obtain ⟨⟩ := e; simp_all
  · simp_all

end EngineUpdates

section StoreUpdates
variable (x : BoolStore)

/-! `BoolStore.reset`. -/

@[simp] theorem BoolStore.reset_cmlo : x.reset.cmlo = x.cmlo := rfl
@[simp] theorem BoolStore.reset_cmlon : x.reset.cmlon = 0 := rfl
@[simp] theorem BoolStore.reset_cmhi : x.reset.cmhi = x.cmhi := rfl
@[simp] theorem BoolStore.reset_cmhin : x.reset.cmhin = 0 := rfl
@[simp] theorem BoolStore.reset_kf : x.reset.kf = x.kf := rfl
@[simp] theorem BoolStore.reset_kt : x.reset.kt = x.kt := rfl
@[simp] theorem BoolStore.reset_kv : x.reset.kv = false := rfl
@[simp] theorem BoolStore.reset_skv : x.reset.skv = false := rfl

end StoreUpdates

/-! Taking an error (R314). -/

section Raise
variable (s : State) (c : ErrCode)

theorem State.raise_A : s.raise .A c = s.erredA c := by
  simp [State.raise, State.recordError, State.onA, State.respond, State.erredA, Engine.recordError_eq]

theorem State.raise_B : s.raise .B c = s.erredB c := by
  simp [State.raise, State.recordError, State.onB, State.respond, State.erredB, Engine.recordError_eq]

end Raise

/-- `respond` with an OK response is the completed state of the claims. -/
theorem State.respond_ok (s : State) (d : RespData) : s.respond (.ok d) = s.completed d := rfl

end Sys2Proof.Machine
end

