-- ==== Sys2Proof/Laws/Invariant.lean ====
section
/-! SUPPORT. Every named operation over storage keeps the invariant, and the state right after reset has storage in
canonical form. -/

namespace Sys2Proof.Machine

section Arrays
variable {α : Type} [DecidableEq α] {d : α} {n : Nat} {m : Memory α}

theorem Memory.wf_nil : Memory.wf d ([] : Memory α) := ⟨List.Pairwise.nil, nofun⟩

omit [DecidableEq α] in
@[simp] theorem Memory.within_nil : Memory.within n ([] : Memory α) := nofun

theorem Memory.within_write (h : Memory.within n m) {i : Nat} (v : α) (hi : i < n) :
    Memory.within n (Memory.write d m i v) := fun _ he =>
  (Memory.mem_write he).elim (h _) fun he => he.1 ▸ hi

theorem Memory.within_fill (h : Memory.within n m) {k : Nat} (f : Nat → α) (hk : k ≤ n) :
    Memory.within n (Memory.fill d m k f) := fun _ he =>
  (Memory.mem_fill he).elim (h _) fun he => Nat.lt_of_lt_of_le he hk

end Arrays

section Engines
variable {α : Type} [DecidableEq α] {d : Block α} {n : Nat} {e : Engine α}

theorem Engine.Inv.putSt (h : e.Inv d n) (b : Block α) : (Engine.putSt b e).Inv d n := { h with }

theorem Engine.Inv.loadSt (h : e.Inv d n) (b : Block α) : (Engine.loadSt b e).Inv d n := { h with }

theorem Engine.Inv.loadIv (h : e.Inv d n) (b : Block α) : (Engine.loadIv b e).Inv d n := { h with }

theorem Engine.Inv.loadRk (h : e.Inv d n) (k : Schedule α) : (Engine.loadRk k e).Inv d n := { h with }

theorem Engine.Inv.attachEk (h : e.Inv d n) : (Engine.attachEk e).Inv d n := { h with }

theorem Engine.Inv.dropSt (h : e.Inv d n) : (Engine.dropSt e).Inv d n := { h with }

theorem Engine.Inv.dropOut (h : e.Inv d n) : (Engine.dropOut e).Inv d n := { h with outn_le := Nat.zero_le _ }

theorem Engine.Inv.loadPt (h : e.Inv d n) {i : Nat} (b : Block α) (hi : i < n) : (Engine.loadPt d i b e).Inv d n :=
  { h with
    pt_wf := Memory.write_wf h.pt_wf _ _
    pt_within := Memory.within_write h.pt_within _ hi
    ptv_wf := Memory.write_wf h.ptv_wf _ _
    ptv_within := Memory.within_write h.ptv_within _ hi }

theorem Engine.Inv.putOut (h : e.Inv d n) {k : Nat} (o : Nat → Block α) (hk : k ≤ n) : (Engine.putOut d k o e).Inv d n :=
  { h with
    out_wf := Memory.fill_wf h.out_wf _ _
    out_within := Memory.within_fill h.out_within _ hk
    outn_le := hk }

theorem Engine.Inv.reset (h : e.Inv d n) : (Engine.reset e).Inv d n :=
  { h with
    ptv_wf := Memory.wf_nil
    ptv_within := Memory.within_nil
    outn_le := Nat.zero_le _
    no_error := fun _ => rfl
    error_number := nofun }

theorem Engine.Inv.recordError (h : e.Inv d n) (c : ErrCode) : (Engine.recordError c e).Inv d n := by
  unfold Engine.recordError
  split
  · exact h
  · exact { h with no_error := nofun, error_number := fun _ => ⟨c, rfl⟩ }

end Engines

section States
variable {s : State}

theorem State.StorageInv.onA (h : s.StorageInv) {f : Engine CtA → Engine CtA} (hf : (f s.a).Inv blankBlockA s.cap.blocks) :
    (s.onA f).StorageInv := ⟨hf, h.engine_b, h.store_b, h.tblok_eq⟩

theorem State.StorageInv.onB (h : s.StorageInv) {f : Engine BvByte → Engine BvByte}
    (hf : (f s.b).Inv blankBlockB s.cap.blocks) : (s.onB f).StorageInv := ⟨h.engine_a, hf, h.store_b, h.tblok_eq⟩

theorem State.StorageInv.onBx (h : s.StorageInv) {f : BoolStore → BoolStore} (hf : (f s.bx).Inv s.cap.blocks) :
    (s.onBx f).StorageInv := ⟨h.engine_a, h.engine_b, hf, h.tblok_eq⟩

theorem State.StorageInv.completed (h : s.StorageInv) (d : RespData) : (s.completed d).StorageInv :=
  ⟨h.engine_a, h.engine_b, h.store_b, h.tblok_eq⟩

theorem State.StorageInv.raise (h : s.StorageInv) (e : EngineId) (c : ErrCode) : (s.raise e c).StorageInv := by
  cases e with
  | A => exact ⟨h.engine_a.recordError c, h.engine_b, h.store_b, h.tblok_eq⟩
  | B => exact ⟨h.engine_a, h.engine_b.recordError c, h.store_b, h.tblok_eq⟩

/-- Every storage array of the state right after reset is in canonical form. -/
theorem State.reset_storage_wf :
    Memory.wf blankBlockA State.reset.a.pt ∧ Memory.wf false State.reset.a.ptv ∧ Memory.wf blankBlockA State.reset.a.out ∧
    Memory.wf blankBlockB State.reset.b.pt ∧ Memory.wf false State.reset.b.ptv ∧ Memory.wf blankBlockB State.reset.b.out ∧
    Memory.wf BvByte.blank State.reset.bx.cmlo ∧ Memory.wf BvByte.blank State.reset.bx.cmhi :=
  ⟨Memory.wf_nil, Memory.wf_nil, Memory.wf_nil, Memory.wf_nil, Memory.wf_nil, Memory.wf_nil, Memory.wf_nil,
    Memory.wf_nil⟩

end States

end Sys2Proof.Machine
end

