-- ==== Sys2Proof/Laws/Ops.lean ====
section
/-! SUPPORT. What each shape of command can do, said once: a proof about a command cites these and does not unfold the
shape. -/

namespace Sys2Proof.Machine

@[simp] theorem firstError_nil : firstError [] = none := rfl

@[simp] theorem firstError_cons (bad : Bool) (c : ErrCode) (rest : List (Bool × ErrCode)) :
    firstError ((bad, c) :: rest) = if bad then some c else firstError rest := rfl

/-- No check of a list fails just when the first does not and none of the rest does. -/
theorem firstError_cons_eq_none {bad : Bool} {c : ErrCode} {rest : List (Bool × ErrCode)} :
    firstError ((bad, c) :: rest) = none ↔ bad = false ∧ firstError rest = none := by
  cases bad <;> simp

/-- The error of a failing list of checks is one of the list. -/
theorem firstError_mem {checks : List (Bool × ErrCode)} {c : ErrCode} (h : firstError checks = some c) :
    (true, c) ∈ checks := by
  induction checks with
  | nil => cases h
  | cons x xs ih =>
    obtain ⟨bad, d⟩ := x
    cases bad
    · exact List.mem_cons_of_mem _ (ih (by simpa using h))
    · rw [firstError_cons, if_pos rfl] at h
      exact Option.some.inj h ▸ List.mem_cons_self ..

/-- Taking an error leads to the erred state of the claims, on either engine. -/
theorem State.raise_eq_erred (s : State) (e : EngineId) (c : ErrCode) : s.raise e c = s.erred e c := by
  cases e with
  | A => exact s.raise_A c
  | B => exact s.raise_B c

/-- A failing check: the command errs with its code. -/
theorem runPlain_error {e : EngineId} {checks : List (Bool × ErrCode)} {f : State → State} {d : RespData} {s : State}
    {c : ErrCode} (h : firstError checks = some c) : runPlain e checks f d s = .next (s.raise e c) := by
  simp [runPlain, h]

/-- No failing check: the command has its effect and responds OK. -/
theorem runPlain_ok {e : EngineId} {checks : List (Bool × ErrCode)} {f : State → State} {d : RespData} {s : State}
    (h : firstError checks = none) : runPlain e checks f d s = .next ((f s).completed d) := by
  simp [runPlain, h, State.respond_ok]

/-- All that a command without evaluations can do. -/
theorem runPlain_cases (e : EngineId) (checks : List (Bool × ErrCode)) (f : State → State) (d : RespData) (s : State) :
    (∃ c, firstError checks = some c ∧ runPlain e checks f d s = .next (s.raise e c)) ∨
      (firstError checks = none ∧ runPlain e checks f d s = .next ((f s).completed d)) := by
  cases h : firstError checks with
  | some c => exact .inl ⟨c, rfl, runPlain_error h⟩
  | none => exact .inr ⟨rfl, runPlain_ok h⟩

/-- A failing check: the command errs with its code. -/
theorem runEvaluating_error {e : EngineId} {checks : List (Bool × ErrCode)} {work : Bool} {drop : State → State}
    {f : Ticket → State → State} {s : State} {c : ErrCode} (h : firstError checks = some c) :
    runEvaluating e checks work drop f s = .next (s.raise e c) := by
  simp [runEvaluating, h]

/-- A primitive fails during the work: GateFail, the destination dropped. -/
theorem runEvaluating_gateFail {e : EngineId} {checks : List (Bool × ErrCode)} {work : Bool} {drop : State → State}
    {f : Ticket → State → State} {s : State} (h : firstError checks = none) (hw : work = true) (hp : s.primfail = true) :
    runEvaluating e checks work drop f s = .next ((drop s).raise e .gateFail) := by
  simp [runEvaluating, h, hw, hp]

/-- No check fails and no primitive fails: the command has its effect and responds OK. -/
theorem runEvaluating_ok {e : EngineId} {checks : List (Bool × ErrCode)} {work : Bool} {drop : State → State}
    {f : Ticket → State → State} {s : State} (h : firstError checks = none) (hp : work = false ∨ s.primfail = false) :
    runEvaluating e checks work drop f s =
      .next (({ f [s.fresh] s with fresh := s.fresh + 1 } : State).completed .empty) := by
  rcases hp with hp | hp <;> simp [runEvaluating, h, hp, State.respond_ok]

/-- All that a command with evaluations can do. -/
theorem runEvaluating_cases (e : EngineId) (checks : List (Bool × ErrCode)) (work : Bool) (drop : State → State)
    (f : Ticket → State → State) (s : State) :
    (∃ c, firstError checks = some c ∧ runEvaluating e checks work drop f s = .next (s.raise e c)) ∨
      (firstError checks = none ∧ work = true ∧ s.primfail = true ∧
        runEvaluating e checks work drop f s = .next ((drop s).raise e .gateFail)) ∨
      (firstError checks = none ∧ (work = false ∨ s.primfail = false) ∧
        runEvaluating e checks work drop f s =
          .next (({ f [s.fresh] s with fresh := s.fresh + 1 } : State).completed .empty)) := by
  cases h : firstError checks with
  | some c => exact .inl ⟨c, rfl, runEvaluating_error h⟩
  | none =>
    cases hw : work <;> cases hp : s.primfail
    · exact .inr (.inr ⟨rfl, .inl rfl, runEvaluating_ok h (.inl rfl)⟩)
    · exact .inr (.inr ⟨rfl, .inl rfl, runEvaluating_ok h (.inl rfl)⟩)
    · exact .inr (.inr ⟨rfl, .inr rfl, runEvaluating_ok h (.inr hp)⟩)
    · exact .inr (.inl ⟨rfl, rfl, rfl, runEvaluating_gateFail h rfl hp⟩)

/-- What a step does with a command that decodes. -/
theorem step_command {s : State} {w : Word} {p : List Beat} {b : Bool} {rest : List HostInput} {i : Instr}
    (hs : s.input = .command w p b :: rest) (hd : decode w p.length = .ok i) :
    step s = exec i (s.accept p b rest) := by
  simp [step, hs, hd]

end Sys2Proof.Machine
end

