-- ==== Sys2Proof/Laws/PerInstr.lean ====
section
/-! SUPPORT. Statements about every instruction as syntax, made one lemma per constructor (LAWS.json). -/

namespace Sys2Proof.Laws

/-- The mask of a row keeps the fixed bits of a word and drops the operand, when the operand lies below the mask. -/
theorem or_and_mask (p m a : Word) (hp : p &&& m = p) (ha : a &&& m = 0) : (p ||| a) &&& m = p := by
  rw [BitVec.and_comm, BitVec.and_or_distrib_left, BitVec.and_comm m p, BitVec.and_comm m a, hp, ha]; exact BitVec.or_zero

/-- A 16-bit operand has no bit in common with the upper half of a word. -/
theorem ofNat_and_upper (a : Nat) (h : a < 2 ^ 16) : BitVec.ofNat 32 a &&& 0xffff0000#32 = 0 := by
  apply BitVec.eq_of_toNat_eq
  have : (0xffff0000#32).toNat = 0xffff * 2 ^ 16 := rfl
  rw [BitVec.toNat_and, BitVec.toNat_ofNat, Nat.mod_eq_of_lt (by omega), this, Nat.and_comm, ← Nat.shiftLeft_eq]
  apply Nat.eq_of_testBit_eq
  intro i
  rw [Nat.testBit_and, Nat.testBit_shiftLeft]
  by_cases hi : 16 ≤ i
  · rw [Nat.testBit_lt_two_pow (Nat.lt_of_lt_of_le h (Nat.pow_le_pow_right (by omega) hi))]; simp
  · simp [hi]

namespace EncodeSelectsRow

/-- The word of a well-formed instruction selects the row of R99 that has the instruction's mnemonic. -/
def Statement (i : Instr) : Prop :=
  i.wellFormed → ∃ row ∈ opcodeRows, row.mnemonic = i.mnemonic ∧ encode i &&& row.mask = row.pattern

/-- The rows that leave ARG free. -/
theorem of_operand (i : Instr) (p : Word) (name : String) (hr : ⟨name, p, 0xffff0000⟩ ∈ opcodeRows)
    (hm : name = i.mnemonic) (hp : i.pattern = p) (hz : p &&& 0xffff0000#32 = p) : Statement i := fun h =>
  ⟨_, hr, hm, by rw [encode, hp]; exact or_and_mask _ _ _ hz (ofNat_and_upper _ h)⟩

/-- The rows that fix every bit. -/
theorem of_fixed (i : Instr) (p : Word) (name : String) (hr : ⟨name, p, 0xffffffff⟩ ∈ opcodeRows)
    (hm : name = i.mnemonic) (hp : encode i = p) : Statement i := fun _ =>
  ⟨_, hr, hm, by rw [hp]; exact BitVec.and_allOnes⟩

theorem addrkA (t : Nat) : Statement (.addrkA t) := of_operand _ 0x10000000 "ADDRK.A" (by decide) rfl rfl (by decide)

theorem addrkB (t : Nat) : Statement (.addrkB t) := of_operand _ 0x18000000 "ADDRK.B" (by decide) rfl rfl (by decide)

theorem subbA : Statement .subbA := of_fixed _ 0x20000000 "SUBB.A" (by decide) rfl (by decide)

theorem subbB : Statement .subbB := of_fixed _ 0x28000000 "SUBB.B" (by decide) rfl (by decide)

theorem shrowA : Statement .shrowA := of_fixed _ 0x30000000 "SHROW.A" (by decide) rfl (by decide)

theorem shrowB : Statement .shrowB := of_fixed _ 0x38000000 "SHROW.B" (by decide) rfl (by decide)

theorem mixcA : Statement .mixcA := of_fixed _ 0x40000000 "MIXC.A" (by decide) rfl (by decide)

theorem mixcB : Statement .mixcB := of_fixed _ 0x48000000 "MIXC.B" (by decide) rfl (by decide)

theorem encblkA : Statement .encblkA := of_fixed _ 0x50000000 "ENCBLK.A" (by decide) rfl (by decide)

theorem encblkB : Statement .encblkB := of_fixed _ 0x58000000 "ENCBLK.B" (by decide) rfl (by decide)

theorem ctrA (n : Nat) : Statement (.ctrA n) := of_operand _ 0x60000000 "CTR.A" (by decide) rfl rfl (by decide)

theorem ctrB (n : Nat) : Statement (.ctrB n) := of_operand _ 0x68000000 "CTR.B" (by decide) rfl rfl (by decide)

theorem ldStA : Statement .ldStA := of_fixed _ 0x70000000 "LD.ST.A" (by decide) rfl (by decide)

theorem ldStB : Statement .ldStB := of_fixed _ 0x78000000 "LD.ST.B" (by decide) rfl (by decide)

theorem ldIvA : Statement .ldIvA := of_fixed _ 0x70010000 "LD.IV.A" (by decide) rfl (by decide)

theorem ldIvB : Statement .ldIvB := of_fixed _ 0x78010000 "LD.IV.B" (by decide) rfl (by decide)

theorem ldRkA : Statement .ldRkA := of_fixed _ 0x70020000 "LD.RK.A" (by decide) rfl (by decide)

theorem ldRkB : Statement .ldRkB := of_fixed _ 0x78020000 "LD.RK.B" (by decide) rfl (by decide)

theorem ldPtA (idx : Nat) : Statement (.ldPtA idx) := of_operand _ 0x70030000 "LD.PT.A" (by decide) rfl rfl (by decide)

theorem ldPtB (idx : Nat) : Statement (.ldPtB idx) := of_operand _ 0x78030000 "LD.PT.B" (by decide) rfl rfl (by decide)

theorem ldCmloB : Statement .ldCmloB := of_fixed _ 0x78050000 "LD.CMLO.B" (by decide) rfl (by decide)

theorem ldCmhiB : Statement .ldCmhiB := of_fixed _ 0x78060000 "LD.CMHI.B" (by decide) rfl (by decide)

theorem ldKonstB : Statement .ldKonstB := of_fixed _ 0x78070000 "LD.KONST.B" (by decide) rfl (by decide)

theorem stStA : Statement .stStA := of_fixed _ 0x80000000 "ST.ST.A" (by decide) rfl (by decide)

theorem stStB : Statement .stStB := of_fixed _ 0x88000000 "ST.ST.B" (by decide) rfl (by decide)

theorem stOutA (idx : Nat) : Statement (.stOutA idx) := of_operand _ 0x80040000 "ST.OUT.A" (by decide) rfl rfl (by decide)

theorem stOutB (idx : Nat) : Statement (.stOutB idx) := of_operand _ 0x88040000 "ST.OUT.B" (by decide) rfl rfl (by decide)

theorem decryptB (mode : DecryptMode) (idx : Nat) : Statement (.decryptB mode idx) := fun h =>
  ⟨⟨"DECRYPT.B", 0x98000000, 0xfffe0000⟩, by decide, rfl, by
    have hop : idx < 2 ^ 16 := h
    have key : ∀ p : Word, p &&& 0xffff0000#32 = p → p &&& 0xfffe0000#32 = 0x98000000#32 →
        (p ||| BitVec.ofNat 32 idx) &&& 0xfffe0000#32 = 0x98000000#32 := fun p hz hp => by
      rw [show (0xfffe0000#32) = 0xffff0000#32 &&& 0xfffe0000#32 from rfl, ← BitVec.and_assoc,
        or_and_mask p _ _ hz (ofNat_and_upper _ hop), hp]
    cases mode with
    | secretKey => exact key 0x98000000 (by decide) (by decide)
    | trivial => exact key 0x98010000 (by decide) (by decide)⟩

theorem setkeyEkA : Statement .setkeyEkA := of_fixed _ 0xa0000000 "SETKEY.EK.A" (by decide) rfl (by decide)

theorem setkeyEkB : Statement .setkeyEkB := of_fixed _ 0xa8000000 "SETKEY.EK.B" (by decide) rfl (by decide)

theorem setkeySkB : Statement .setkeySkB := of_fixed _ 0xa8010000 "SETKEY.SK.B" (by decide) rfl (by decide)

theorem rdstatStatusA : Statement .rdstatStatusA := of_fixed _ 0xb0000000 "RDSTAT.STATUS.A" (by decide) rfl (by decide)

theorem rdstatStatusB : Statement .rdstatStatusB := of_fixed _ 0xb8000000 "RDSTAT.STATUS.B" (by decide) rfl (by decide)

theorem rdstatOutnA : Statement .rdstatOutnA := of_fixed _ 0xb0010000 "RDSTAT.OUTN.A" (by decide) rfl (by decide)

theorem rdstatOutnB : Statement .rdstatOutnB := of_fixed _ 0xb8010000 "RDSTAT.OUTN.B" (by decide) rfl (by decide)

theorem rdstatCmlonB : Statement .rdstatCmlonB := of_fixed _ 0xb8020000 "RDSTAT.CMLON.B" (by decide) rfl (by decide)

theorem rdstatCmhinB : Statement .rdstatCmhinB := of_fixed _ 0xb8030000 "RDSTAT.CMHIN.B" (by decide) rfl (by decide)

theorem rdstatCapA : Statement .rdstatCapA := of_fixed _ 0xb0040000 "RDSTAT.CAP.A" (by decide) rfl (by decide)

theorem rdstatCapB : Statement .rdstatCapB := of_fixed _ 0xb8040000 "RDSTAT.CAP.B" (by decide) rfl (by decide)

theorem resetA : Statement .resetA := of_fixed _ 0xf0000000 "RESET.A" (by decide) rfl (by decide)

theorem resetB : Statement .resetB := of_fixed _ 0xf8000000 "RESET.B" (by decide) rfl (by decide)

end EncodeSelectsRow

end Sys2Proof.Laws
end

