-- ==== Sys2Proof/Laws/Primitives.lean ====
section
/-! SUPPORT. What each primitive and unit denotes: its value law, with no word about the rest of the ciphertext. -/

namespace Sys2Proof.Machine

@[simp] theorem freshA_val (p : Ticket) (v : Byte) : (freshA p v).val = v := rfl
@[simp] theorem freshB_val (p : Ticket) (v : Bool) : (freshB p v).val = v := rfl
@[simp] theorem arithXor_val (p : Ticket) (a b : CtA) : (arithXor p a b).val = a.val ^^^ b.val := rfl
@[simp] theorem arithTriv_val (p : Ticket) (k : Byte) : (arithTriv p k).val = k := rfl
@[simp] theorem arithLookup_val (p : Ticket) (t : Vector (Byte × Byte) 256) (a : CtA) :
    (arithLookup p t a).val = tableLookup t a.val := rfl
@[simp] theorem boolXor_val (p : Ticket) (a b : CtB) : (boolXor p a b).val = Bool.xor a.val b.val := rfl
@[simp] theorem boolXnor_val (p : Ticket) (a b : CtB) : (boolXnor p a b).val = !Bool.xor a.val b.val := rfl
@[simp] theorem boolAnd_val (p : Ticket) (a b : CtB) : (boolAnd p a b).val = (a.val && b.val) := rfl
@[simp] theorem boolMux_val (p : Ticket) (c a b : CtB) : (boolMux p c a b).val = if c.val then a.val else b.val := rfl

@[simp] theorem denoteA_getElem {n : Nat} (b : Vector CtA n) (i : Nat) (h : i < n) : (denoteA b)[i] = b[i].val := by
  simp [denoteA]

@[simp] theorem denoteB_getElem {n : Nat} (b : Vector BvByte n) (i : Nat) (h : i < n) :
    (denoteB b)[i] = BvByte.val b[i] := by
  simp [denoteB]

/-- Bit `k` of the byte a BitVectorByte denotes is the bit its element `k` denotes (R5, R62). -/
@[simp] theorem BvByte.val_getElem (v : BvByte) (k : Nat) (h : k < 8) : (BvByte.val v)[k] = v[k].val := by
  simp [BvByte.val]

/-- `xor8` denotes the XOR of the bytes (R166). -/
@[simp] theorem xor8_val (p : Ticket) (x y : BvByte) : BvByte.val (xor8 p x y) = BvByte.val x ^^^ BvByte.val y := by
  apply BitVec.eq_of_getElem_eq
  intro k hk
  simp [xor8]

@[simp] theorem shiftRows_getElem {α : Type} (b : Block α) (j : Nat) (h : j < 16) :
    (shiftRows b)[j] = b[shiftRowsIndex ⟨j, h⟩] := by
  simp [shiftRows]

/-- A gate list run over two kinds of wires that a map relates gives related wires: the values of a circuit of
ciphertexts are those of the circuit of their values. -/
theorem runGates_map {α β : Type} (f : α → β) (g : GateOp → Nat → α → α → α) (h : GateOp → Nat → β → β → β) (d : α)
    (hg : ∀ op n a b, f (g op n a b) = h op n (f a) (f b)) (gates : List Gate) (wires : List α) :
    (runGates g d gates wires).map f = runGates h (f d) gates (wires.map f) := by
  have hw : ∀ (l : List α) (k : Nat), f (wire d l k) = wire (f d) (l.map f) k := by
    intro l
    induction l with
    | nil => intro k; rfl
    | cons x l ih => intro k; cases k with
      | zero => rfl
      | succ k => exact ih k
  induction gates generalizing wires with
  | nil => rfl
  | cons x gates ih => simp only [runGates, ih, List.map_cons, hg, hw]

end Sys2Proof.Machine
end

