-- ==== Sys2Proof/Laws/Transforms.lean ====
section
/-! SUPPORT. What the transforms denote, said once for each, against the cleartext functions of Reference.lean, and how the
index computations of a block read element by element. -/

namespace Sys2Proof.Machine

section Indices
variable {α : Type}

@[simp] theorem column_getElem (b : Block α) (c : Fin 4) (r : Nat) (h : r < 4) :
    (column b c)[r] = b[r + 4 * c.val]'(by omega) := by
  simp [column]

@[simp] theorem ofColumns_getElem (cols : Fin 4 → Vector α 4) (j : Nat) (h : j < 16) :
    (ofColumns cols)[j] = (cols ⟨j / 4, by omega⟩)[j % 4]'(by omega) := by
  simp [ofColumns]

@[simp] theorem withCounter_getElem (iv : Block α) (lo hi : α) (j : Nat) (h : j < 16) :
    (withCounter iv lo hi)[j] = if j = 15 then lo else if j = 14 then hi else iv[j] := by
  simp [withCounter]

/-- `SR` of R134, computed, is the table R134 prints. -/
theorem shiftRowsIndex_eq_srTable : ∀ j : Fin 16, shiftRowsIndex j = Reference.srTable[j] := by decide

/-- ShiftRows of the engines is the permutation of the printed table, on any elements (R132, R134, R177). -/
theorem shiftRows_eq_reference (b : Block α) : shiftRows b = Reference.shiftRows b := by
  apply Vector.ext
  intro j h
  simp [Reference.shiftRows, shiftRowsIndex_eq_srTable]

end Indices

/-- AddRoundKey on engine A denotes the XOR with the round key (R130). -/
theorem denoteA_addRoundKeyA (rk : Schedule CtA) (p : Ticket) (t : Fin 11) (b : Block CtA) :
    denoteA (addRoundKeyA rk p t b) = Reference.addRoundKey (denoteA rk) t (denoteA b) := by
  apply Vector.ext
  intro i h
  simp [addRoundKeyA, Reference.addRoundKey, roundKeyByte]

/-- AddRoundKey on engine B denotes the XOR with the round key (R175). -/
theorem denoteB_addRoundKeyB (rk : Schedule BvByte) (p : Ticket) (t : Fin 11) (b : Block BvByte) :
    denoteB (addRoundKeyB rk p t b) = Reference.addRoundKey (denoteB rk) t (denoteB b) := by
  apply Vector.ext
  intro i h
  simp [addRoundKeyB, Reference.addRoundKey, roundKeyByte]

/-- ShiftRows on engine A moves the denoted bytes (R132). -/
theorem denoteA_shiftRows (b : Block CtA) : denoteA (shiftRows b) = Reference.shiftRows (denoteA b) := by
  apply Vector.ext
  intro i h
  simp [Reference.shiftRows, shiftRowsIndex_eq_srTable]

/-- ShiftRows on engine B moves the denoted bytes (R177). -/
theorem denoteB_shiftRows (b : Block BvByte) : denoteB (shiftRows b) = Reference.shiftRows (denoteB b) := by
  apply Vector.ext
  intro i h
  simp [Reference.shiftRows, shiftRowsIndex_eq_srTable]

/-- A lookup finds the pair with the input, whatever else the table holds, when no two inputs are equal (R28, R124). -/
theorem tableLookup_of_mem {table : Vector (Byte × Byte) 256} {x y : Byte} (h : (x, y) ∈ table.toList)
    (hd : (table.toList.map Prod.fst).Nodup) : tableLookup table x = y := by
  unfold tableLookup
  cases hf : table.toList.find? fun e => e.1 == x with
  | none => exact absurd (List.find?_eq_none.1 hf _ h) (by simp)
  | some e =>
    have hm := List.mem_of_find?_eq_some hf
    have hx : e.1 = x := by simpa using List.find?_some hf
    have : e = (x, y) := List.inj_on_of_nodup_map hd hm h hx
    rw [this]

end Sys2Proof.Machine
end

