-- ==== Sys2Proof/Tests/Slice0.lean ====
section
/-! SUPPORT. Tests of the model. Every expected value is one of spec/95_test_vectors.md (V1 to V20), of R99's table, or
worked out by hand from the rule the test names. The last part shows, for each statement with hypotheses, a state and
operands that meet them. -/

namespace Sys2Proof.Tests

-- The evaluations run one after the other: many at once take more memory than a check may.
set_option Elab.async false

open Sys2Proof Sys2Proof.Machine

/-! Helpers. -/

/-- A ciphertext of engine A that denotes `v`. -/
def ctA (v : Byte) : CtA := ⟨v, 0⟩

/-- A boolean ciphertext that the host made by trivial encryption. -/
def ctB (v : Bool) : CtB := ⟨v, true, 0⟩

/-- A BitVectorByte of trivial ciphertexts that denotes `v`. -/
def bitsOf (v : Byte) : BvByte := Vector.ofFn fun k => ctB (v.getLsbD k.val)

/-- The first bytes of a list, as ciphertexts. -/
def vec {α : Type} (n : Nat) (f : Byte → α) (l : List Byte) : Vector α n := Vector.ofFn fun i => f (l.getD i.val 0)

/-- The bytes 00 to 0f. -/
def ramp : List Byte := [0, 1, 2, 3, 4, 5, 6, 7, 8, 9, 10, 11, 12, 13, 14, 15]

/-- The block of V8. -/
def plainV8 : List Byte :=
  [0x00, 0x11, 0x22, 0x33, 0x44, 0x55, 0x66, 0x77, 0x88, 0x99, 0xaa, 0xbb, 0xcc, 0xdd, 0xee, 0xff]

/-- The IV of V1: twelve bytes 01, then four 00. -/
def ivV1 : List Byte := [1, 1, 1, 1, 1, 1, 1, 1, 1, 1, 1, 1, 0, 0, 0, 0]

/-- The schedule of V7, of the key 00 01 .. 0f, one round key a row. -/
def scheduleV7 : List Byte :=
  [0x00, 0x01, 0x02, 0x03, 0x04, 0x05, 0x06, 0x07, 0x08, 0x09, 0x0a, 0x0b, 0x0c, 0x0d, 0x0e, 0x0f] ++
  [0xd6, 0xaa, 0x74, 0xfd, 0xd2, 0xaf, 0x72, 0xfa, 0xda, 0xa6, 0x78, 0xf1, 0xd6, 0xab, 0x76, 0xfe] ++
  [0xb6, 0x92, 0xcf, 0x0b, 0x64, 0x3d, 0xbd, 0xf1, 0xbe, 0x9b, 0xc5, 0x00, 0x68, 0x30, 0xb3, 0xfe] ++
  [0xb6, 0xff, 0x74, 0x4e, 0xd2, 0xc2, 0xc9, 0xbf, 0x6c, 0x59, 0x0c, 0xbf, 0x04, 0x69, 0xbf, 0x41] ++
  [0x47, 0xf7, 0xf7, 0xbc, 0x95, 0x35, 0x3e, 0x03, 0xf9, 0x6c, 0x32, 0xbc, 0xfd, 0x05, 0x8d, 0xfd] ++
  [0x3c, 0xaa, 0xa3, 0xe8, 0xa9, 0x9f, 0x9d, 0xeb, 0x50, 0xf3, 0xaf, 0x57, 0xad, 0xf6, 0x22, 0xaa] ++
  [0x5e, 0x39, 0x0f, 0x7d, 0xf7, 0xa6, 0x92, 0x96, 0xa7, 0x55, 0x3d, 0xc1, 0x0a, 0xa3, 0x1f, 0x6b] ++
  [0x14, 0xf9, 0x70, 0x1a, 0xe3, 0x5f, 0xe2, 0x8c, 0x44, 0x0a, 0xdf, 0x4d, 0x4e, 0xa9, 0xc0, 0x26] ++
  [0x47, 0x43, 0x87, 0x35, 0xa4, 0x1c, 0x65, 0xb9, 0xe0, 0x16, 0xba, 0xf4, 0xae, 0xbf, 0x7a, 0xd2] ++
  [0x54, 0x99, 0x32, 0xd1, 0xf0, 0x85, 0x57, 0x68, 0x10, 0x93, 0xed, 0x9c, 0xbe, 0x2c, 0x97, 0x4e] ++
  [0x13, 0x11, 0x1d, 0x7f, 0xe3, 0x94, 0x4a, 0x17, 0xf3, 0x07, 0xa7, 0x8b, 0x4d, 0x2b, 0x30, 0xc5]

/-- The schedule of V3, of the all-zero key, one round key a row. -/
def scheduleV3 : List Byte :=
  [0x00, 0x00, 0x00, 0x00, 0x00, 0x00, 0x00, 0x00, 0x00, 0x00, 0x00, 0x00, 0x00, 0x00, 0x00, 0x00] ++
  [0x62, 0x63, 0x63, 0x63, 0x62, 0x63, 0x63, 0x63, 0x62, 0x63, 0x63, 0x63, 0x62, 0x63, 0x63, 0x63] ++
  [0x9b, 0x98, 0x98, 0xc9, 0xf9, 0xfb, 0xfb, 0xaa, 0x9b, 0x98, 0x98, 0xc9, 0xf9, 0xfb, 0xfb, 0xaa] ++
  [0x90, 0x97, 0x34, 0x50, 0x69, 0x6c, 0xcf, 0xfa, 0xf2, 0xf4, 0x57, 0x33, 0x0b, 0x0f, 0xac, 0x99] ++
  [0xee, 0x06, 0xda, 0x7b, 0x87, 0x6a, 0x15, 0x81, 0x75, 0x9e, 0x42, 0xb2, 0x7e, 0x91, 0xee, 0x2b] ++
  [0x7f, 0x2e, 0x2b, 0x88, 0xf8, 0x44, 0x3e, 0x09, 0x8d, 0xda, 0x7c, 0xbb, 0xf3, 0x4b, 0x92, 0x90] ++
  [0xec, 0x61, 0x4b, 0x85, 0x14, 0x25, 0x75, 0x8c, 0x99, 0xff, 0x09, 0x37, 0x6a, 0xb4, 0x9b, 0xa7] ++
  [0x21, 0x75, 0x17, 0x87, 0x35, 0x50, 0x62, 0x0b, 0xac, 0xaf, 0x6b, 0x3c, 0xc6, 0x1b, 0xf0, 0x9b] ++
  [0x0e, 0xf9, 0x03, 0x33, 0x3b, 0xa9, 0x61, 0x38, 0x97, 0x06, 0x0a, 0x04, 0x51, 0x1d, 0xfa, 0x9f] ++
  [0xb1, 0xd4, 0xd8, 0xe2, 0x8a, 0x7d, 0xb9, 0xda, 0x1d, 0x7b, 0xb3, 0xde, 0x4c, 0x66, 0x49, 0x41] ++
  [0xb4, 0xef, 0x5b, 0xcb, 0x3e, 0x92, 0xe2, 0x11, 0x23, 0xe9, 0x51, 0xcf, 0x6f, 0x8f, 0x18, 0x8e]

/-- An engine after the host has loaded everything: ST as in V8, IV as in V1, the PT blocks 0 to 256, of which 0 and 1
hold 00 .. 0f. -/
def engine {α : Type} (f : Byte → α) (rk : List Byte) : Engine α :=
  { st := vec 16 f plainV8, stv := true, iv := vec 16 f ivV1, ivv := true, rk := vec 176 f rk, rkv := true
    pt := [(0, vec 16 f ramp), (1, vec 16 f ramp)], ptv := (List.range 257).map fun i => (i, true)
    out := [], outn := 2, ekv := true, wrap := false, err := false, errcode := 0 }

/-- The counter list of 257 entries that holds `f i`, less the entries that denote 0 with blank ciphertexts: here every
entry is made of trivial ciphertexts, so none is left out. -/
def counterList (f : Nat → Nat) : Memory BvByte := (List.range 257).map fun i => (i, bitsOf (BitVec.ofNat 8 (f i)))

/-- A block of capacity 257 with everything loaded and the schedule `rk`. -/
def loaded (rk : List Byte) : State :=
  { a := engine ctA rk, b := engine bitsOf rk
    bx := { cmlo := counterList (· % 16), cmlon := 257, cmhi := counterList (· / 16 % 16), cmhin := 257
            kf := ctB false, kt := ctB true, kv := true, skv := true }
    sbox := fixedTable, tblok := true, cap := ⟨257, by decide, by decide⟩, input := [], payload := []
    primfail := false, response := none, fresh := 0 }

/-- Everything loaded, with the schedule of V7. -/
def base : State := loaded scheduleV7

/-- `base` while PRIMFAIL is raised. -/
def failing : State := { base with primfail := true }

/-- A block right after a reset, of capacity 257. -/
def fresh : State := { State.reset with cap := ⟨257, by decide, by decide⟩ }

/-- `base` with a table whose inputs are all 0. -/
def malformed : State := { base with sbox := Vector.replicate 256 (0, 0), tblok := false }

/-- `base` with the working blocks `l`. -/
def withSt (l : List Byte) : State :=
  { base with a := { base.a with st := vec 16 ctA l }, b := { base.b with st := vec 16 bitsOf l } }

/-- A state with a payload of `n` beats of engine A that denote 7. -/
def beatsA (n : Nat) (s : State) : State := { s with payload := List.replicate n (.arith (ctA 7)) }

/-- A state with a payload of `n` beats of engine B that denote 7. -/
def beatsB (n : Nat) (s : State) : State := { s with payload := List.replicate n (.bits (bitsOf 7)) }

/-- The state an outcome leads to. -/
def after : Result → State
  | .next t => t
  | .fault _ => State.reset
  | .refused _ => State.reset

/-- The response of an outcome. -/
def responseOf : Result → Option Response
  | .next t => t.response
  | .fault _ => none
  | .refused _ => none

/-- The code of the response of a command (R301). -/
def code (i : Instr) (s : State) : Option Byte := (responseOf (exec i s)).map Response.number

/-- The bytes ST.A denotes after a command. -/
def stA (i : Instr) (s : State) : List Byte := (denoteA (after (exec i s)).a.st).toList

/-- The bytes ST.B denotes after a command. -/
def stB (i : Instr) (s : State) : List Byte := (denoteB (after (exec i s)).b.st).toList

/-- An outcome with a response is a next state with that response. -/
theorem next_of_responseOf {r : Result} {x : Response} (h : responseOf r = some x) :
    ∃ t, r = .next t ∧ t.response = some x :=
  match r, h with
  | .next t, h => ⟨t, rfl, h⟩

/-! Well-formedness: the one check, on every operand. -/

theorem test_operands_above_16_bits_are_illFormed :
    ¬ (Instr.addrkA 65536).wellFormed ∧ ¬ (Instr.addrkB 65536).wellFormed ∧ ¬ (Instr.ctrA 65536).wellFormed ∧
    ¬ (Instr.ctrB 65536).wellFormed ∧ ¬ (Instr.ldPtA 65536).wellFormed ∧ ¬ (Instr.ldPtB 65536).wellFormed ∧
    ¬ (Instr.stOutA 65536).wellFormed ∧ ¬ (Instr.stOutB 65536).wellFormed ∧
    ¬ (Instr.decryptB .trivial 65536).wellFormed := by decide

theorem test_operands_of_16_bits_are_wellFormed :
    (Instr.addrkA 65535).wellFormed ∧ (Instr.decryptB .secretKey 65535).wellFormed ∧ Instr.resetB.wellFormed := by decide

/-! Decoding: the words of R99, written out. -/

theorem test_decode_transforms :
    decode 0x10000005 0 = .ok (.addrkA 5) ∧ decode 0x18000003 0 = .ok (.addrkB 3) ∧ decode 0x20000000 0 = .ok .subbA ∧
    decode 0x28000000 0 = .ok .subbB ∧ decode 0x30000000 0 = .ok .shrowA ∧ decode 0x38000000 0 = .ok .shrowB ∧
    decode 0x40000000 0 = .ok .mixcA ∧ decode 0x48000000 0 = .ok .mixcB := by decide

theorem test_decode_driver_and_ctr :
    decode 0x50000000 0 = .ok .encblkA ∧ decode 0x58000000 0 = .ok .encblkB ∧ decode 0x60000002 0 = .ok (.ctrA 2) ∧
    decode 0x60000000 0 = .ok (.ctrA 0) ∧ decode 0x68000101 0 = .ok (.ctrB 257) := by decide

theorem test_decode_loads :
    decode 0x70000000 16 = .ok .ldStA ∧ decode 0x78000000 15 = .ok .ldStB ∧ decode 0x70010000 16 = .ok .ldIvA ∧
    decode 0x78010000 16 = .ok .ldIvB ∧ decode 0x70020000 176 = .ok .ldRkA ∧ decode 0x78020000 0 = .ok .ldRkB ∧
    decode 0x70030001 16 = .ok (.ldPtA 1) ∧ decode 0x7803FFFF 16 = .ok (.ldPtB 65535) ∧
    decode 0x78050000 2 = .ok .ldCmloB ∧ decode 0x78060000 2 = .ok .ldCmhiB ∧ decode 0x78070000 2 = .ok .ldKonstB := by
  decide

theorem test_decode_stores_and_decrypt :
    decode 0x80000000 0 = .ok .stStA ∧ decode 0x88000000 0 = .ok .stStB ∧ decode 0x80040002 0 = .ok (.stOutA 2) ∧
    decode 0x8804000F 0 = .ok (.stOutB 15) ∧ decode 0x98000003 0 = .ok (.decryptB .secretKey 3) ∧
    decode 0x98010007 0 = .ok (.decryptB .trivial 7) ∧ decode 0x9800FFFF 0 = .ok (.decryptB .secretKey 65535) := by decide

theorem test_decode_keys_status_reset :
    decode 0xA0000000 0 = .ok .setkeyEkA ∧ decode 0xA8000000 0 = .ok .setkeyEkB ∧ decode 0xA8010000 0 = .ok .setkeySkB ∧
    decode 0xB0000000 0 = .ok .rdstatStatusA ∧ decode 0xB8000000 0 = .ok .rdstatStatusB ∧
    decode 0xB0010000 0 = .ok .rdstatOutnA ∧ decode 0xB8010000 0 = .ok .rdstatOutnB ∧
    decode 0xB8020000 0 = .ok .rdstatCmlonB ∧ decode 0xB8030000 0 = .ok .rdstatCmhinB ∧
    decode 0xB0040000 0 = .ok .rdstatCapA ∧ decode 0xB8040000 0 = .ok .rdstatCapB ∧ decode 0xF0000000 0 = .ok .resetA ∧
    decode 0xF8000000 0 = .ok .resetB := by decide

/-- The illegal words of V19, and the two of R97. -/
theorem test_decode_refuses_the_illegal_words :
    [0x00000000, 0xFFFFFFFF, 0x11000000, 0x10010000, 0x20000001, 0x5C000000, 0x70040000, 0x70050000, 0x80010000,
      0x90000000, 0x98020000, 0xB0020000, 0xB0050000, 0xC0000000, 0xE8000000, 0xF0000001, 0xA0010000].map
      (fun w => (decode w 0).isOk) = List.replicate 17 false := by decide

theorem test_decode_refuses_a_payload_without_load :
    decode 0x80000000 1 = .error .payloadOnNonLoad ∧ decode 0xF8000000 16 = .error .payloadOnNonLoad := by decide

theorem test_decodeTableWord :
    decodeTableWord 32 0x98010007 = some (.decryptB .trivial 7) ∧ decodeTableWord 32 0x00000000 = none ∧
    decodeTableWord 40 0x0110000000 = none := by decide

/-- After reset STATUS.B is 0x80000001 and STATUS.A is 0x00000001 (V18), run from the interface's own word. -/
theorem test_withFetchWord_runs_the_word :
    responseOf (step (State.reset.withFetchWord 32 0xB8000000)) = some (.ok (.word 0x80000001)) ∧
    responseOf (step (State.reset.withFetchWord 32 0xB0000000)) = some (.ok (.word 0x00000001)) := by decide

/-! Primitives and units (V11 to V13, V15). -/

/-- V11. -/
theorem test_arith_primitives :
    (arithXor [] (ctA 0xa5) (ctA 0x5a)).val = 0xff ∧ (arithXor [] (ctA 0x57) (ctA 0x83)).val = 0xd4 ∧
    [0x00, 0x01, 0x7f, 0x80, 0xff].map (fun x => (arithShl1 [] (ctA x)).val) = [0x00, 0x02, 0xfe, 0x00, 0xfe] ∧
    [0x00, 0x7f, 0x80, 0xff].map (fun x => (arithTop [] (ctA x)).val) = [0, 0, 1, 1] ∧
    (arithCmul [] (ctA 0) 0x1b).val = 0 ∧ (arithCmul [] (ctA 1) 0x1b).val = 0x1b ∧ (arithTriv [] 15).val = 0x0f := by
  decide

/-- V11, A.lookup. -/
theorem test_arith_lookup :
    [0x00, 0x01, 0x52, 0x53, 0xff].map (fun x => (arithLookup [] fixedTable (ctA x)).val) =
      [0x63, 0x7c, 0x00, 0xed, 0x16] := by decide +kernel

/-- V12. -/
theorem test_doubleA :
    [0x00, 0x01, 0x7f, 0x80, 0x81, 0xff, 0x57, 0x8e, 0x1b, 0x8d, 0xc0].map (fun x => (doubleA [] (ctA x)).val) =
      [0x00, 0x02, 0xfe, 0x1b, 0x19, 0xe5, 0xae, 0x07, 0x36, 0x01, 0x9b] := by decide

/-- V13. -/
theorem test_mixColumnA :
    (mixColumnA [] (vec 4 ctA [0xdb, 0x13, 0x53, 0x45])).toList.map CtA.val = [0x8e, 0x4d, 0xa1, 0xbc] ∧
    (mixColumnA [] (vec 4 ctA [0x80, 0x00, 0x00, 0x00])).toList.map CtA.val = [0x1b, 0x80, 0x80, 0x9b] := by
  decide +kernel

/-- V15, the gates; the operands in the order 00, 01, 10, 11. -/
theorem test_bool_gates :
    let ops := [(false, false), (false, true), (true, false), (true, true)]
    ops.map (fun o => (boolXor [] (ctB o.1) (ctB o.2)).val) = [false, true, true, false] ∧
    ops.map (fun o => (boolXnor [] (ctB o.1) (ctB o.2)).val) = [true, false, false, true] ∧
    ops.map (fun o => (boolAnd [] (ctB o.1) (ctB o.2)).val) = [false, false, false, true] ∧
    ops.map (fun o => (boolMux [] (ctB false) (ctB o.1) (ctB o.2)).val) = [false, true, false, true] ∧
    ops.map (fun o => (boolMux [] (ctB true) (ctB o.1) (ctB o.2)).val) = [false, false, true, true] := by decide

/-- V15, B.shl1. -/
theorem test_boolShl1 :
    BvByte.val (boolShl1 (bitsOf 0x7b) (ctB false)) = 0xf6 ∧ (boolTop (bitsOf 0x7b)).val = false ∧
    BvByte.val (boolShl1 (bitsOf 0x80) (ctB true)) = 0x01 ∧ (boolTop (bitsOf 0x80)).val = true := by decide

/-- V15: `double_B` with KF and KT denoting (0,1), (1,0), (0,0), (1,1). -/
theorem test_doubleB :
    [0x00, 0x80, 0xff, 0x57].map (fun x => BvByte.val (doubleB (ctB false) (ctB true) [] (bitsOf x))) =
      [0x00, 0x1b, 0xe5, 0xae] ∧
    [0x00, 0x80, 0xff, 0x57].map (fun x => BvByte.val (doubleB (ctB true) (ctB false) [] (bitsOf x))) =
      [0xfe, 0xe5, 0x1b, 0x50] ∧
    [0x00, 0x80, 0xff, 0x57].map (fun x => BvByte.val (doubleB (ctB false) (ctB false) [] (bitsOf x))) =
      [0x00, 0x00, 0xfe, 0xae] ∧
    [0x00, 0x80, 0xff, 0x57].map (fun x => BvByte.val (doubleB (ctB true) (ctB true) [] (bitsOf x))) =
      [0xfe, 0xfe, 0x00, 0x50] := by decide +kernel

/-- V15, the circuit of R171. -/
theorem test_sboxB :
    [0x00, 0x01, 0x53, 0xff].map (fun x => BvByte.val (sboxB [] (bitsOf x))) = [0x63, 0x7c, 0xed, 0x16] := by
  decide +kernel

/-- R171: 128 gates, of which 34 AND, 90 XOR and 4 XNOR; gate `k` makes signal `8 + k` from inputs and earlier gates. -/
theorem test_circuit_counts :
    sboxCircuit.length = 128 ∧ (sboxCircuit.filter (·.op = .and)).length = 34 ∧
    (sboxCircuit.filter (·.op = .xor)).length = 90 ∧ (sboxCircuit.filter (·.op = .xnor)).length = 4 ∧
    sboxCircuit.map Gate.out = (List.range 128).map (8 + ·) ∧ ∀ g ∈ sboxCircuit, g.a < g.out ∧ g.b < g.out := by
  decide +kernel

/-- R170, the table against its algebraic definition, at corners of the field. -/
theorem test_sboxByte_is_the_affine_inverse :
    [0x00, 0x01, 0x02, 0x52, 0x53, 0x80, 0xff].map sboxByte =
      [0x00, 0x01, 0x02, 0x52, 0x53, 0x80, 0xff].map fun x => Reference.affine (Reference.gfInverse x) := by
  decide +kernel

/-- R127, the rows as it prints them. -/
theorem test_mixFactor_rows :
    List.ofFn (Reference.mixFactor 0) = [2, 3, 1, 1] ∧ List.ofFn (Reference.mixFactor 1) = [1, 2, 3, 1] ∧
    List.ofFn (Reference.mixFactor 2) = [1, 1, 2, 3] ∧ List.ofFn (Reference.mixFactor 3) = [3, 1, 1, 2] := by decide

/-- V4: bytes 0 to 15 of the schedule of the key of sixteen 1s are 1, and it goes on 124, 125, 125, 125; round key 10. -/
theorem test_keyExpansion :
    (Reference.keyExpansion (Vector.replicate 16 1)).toList.take 20 =
      [1, 1, 1, 1, 1, 1, 1, 1, 1, 1, 1, 1, 1, 1, 1, 1, 124, 125, 125, 125] ∧
    (Reference.keyExpansion (Vector.replicate 16 1)).toList.drop 160 =
      [25, 93, 206, 57, 236, 28, 165, 127, 53, 88, 72, 145, 203, 99, 120, 222] := by decide +kernel

/-- V16, the counter bytes of R220. -/
theorem test_counter_bytes :
    [0, 1, 15, 16, 17, 255, 256, 257, 4095, 4096, 65535].map (fun i => (counterHigh i, counterLow i)) =
      [(0, 0), (0, 1), (0, 15), (1, 0), (1, 1), (15, 15), (0, 0), (0, 1), (15, 15), (0, 0), (15, 15)] := by decide

/-! The in-place commands (V14). -/

theorem test_addrkA :
    stA (.addrkA 0) base =
      [0x00, 0x10, 0x20, 0x30, 0x40, 0x50, 0x60, 0x70, 0x80, 0x90, 0xa0, 0xb0, 0xc0, 0xd0, 0xe0, 0xf0] ∧
    stA (.addrkA 10) base =
      [0x13, 0x00, 0x3f, 0x4c, 0xa7, 0xc1, 0x2c, 0x60, 0x7b, 0x9e, 0x0d, 0x30, 0x81, 0xf6, 0xde, 0x3a] := by
  decide +kernel

theorem test_addrkB :
    stB (.addrkB 10) base =
      [0x13, 0x00, 0x3f, 0x4c, 0xa7, 0xc1, 0x2c, 0x60, 0x7b, 0x9e, 0x0d, 0x30, 0x81, 0xf6, 0xde, 0x3a] := by
  decide +kernel

theorem test_addrk_round_range :
    code (.addrkA 11) base = some 4 ∧ code (.addrkA 65535) base = some 4 ∧ code (.addrkB 11) fresh = some 4 ∧
    stA (.addrkA 11) base = plainV8 := by decide +kernel

theorem test_subbA :
    stA .subbA (withSt ramp) =
      [0x63, 0x7c, 0x77, 0x7b, 0xf2, 0x6b, 0x6f, 0xc5, 0x30, 0x01, 0x67, 0x2b, 0xfe, 0xd7, 0xab, 0x76] := by
  decide +kernel

theorem test_subbB :
    stB .subbB (withSt ramp) =
      [0x63, 0x7c, 0x77, 0x7b, 0xf2, 0x6b, 0x6f, 0xc5, 0x30, 0x01, 0x67, 0x2b, 0xfe, 0xd7, 0xab, 0x76] := by
  decide +kernel

theorem test_shrow :
    stA .shrowA (withSt ramp) = [0, 5, 10, 15, 4, 9, 14, 3, 8, 13, 2, 7, 12, 1, 6, 11] ∧
    stB .shrowB (withSt ramp) = [0, 5, 10, 15, 4, 9, 14, 3, 8, 13, 2, 7, 12, 1, 6, 11] := by decide +kernel

theorem test_mixcA :
    stA .mixcA
      (withSt [0x63, 0x53, 0xe0, 0x8c, 0x09, 0x60, 0xe1, 0x04, 0xcd, 0x70, 0xb7, 0x51, 0xba, 0xca, 0xd0, 0xe7]) =
      [0x5f, 0x72, 0x64, 0x15, 0x57, 0xf5, 0xbc, 0x92, 0xf7, 0xbe, 0x3b, 0x29, 0x1d, 0xb9, 0xf9, 0x1a] := by
  decide +kernel

theorem test_mixcB :
    stB .mixcB (withSt ramp) = [2, 7, 0, 5, 6, 3, 4, 1, 10, 15, 8, 13, 14, 11, 12, 9] := by decide +kernel

/-- V14, the check failures: NotLoaded before NoEvalKey, SHROW without a key, KV of MIXC.B, PRIMFAIL. -/
theorem test_inPlace_checks :
    code .subbA fresh = some 8 ∧ code .subbA { fresh with a := { fresh.a with stv := true } } = some 9 ∧
    code .shrowA { fresh with a := { fresh.a with stv := true } } = some 0 ∧
    code (.addrkA 0) { base with a := { base.a with rkv := false } } = some 8 ∧
    code .mixcB { base with bx := { base.bx with kv := false } } = some 8 ∧
    code .subbB { base with bx := { base.bx with kv := false } } = some 0 ∧
    code .mixcA malformed = some 1 ∧ code .shrowB failing = some 0 := by decide +kernel

/-- V14, P5: GateFail leaves STV.A = 0 and ERRCODE.A = 6, so that ST.ST.A is NotLoaded. -/
theorem test_gateFail :
    code .mixcA failing = some 6 ∧ (after (exec .mixcA failing)).a.stv = false ∧
    (after (exec .mixcA failing)).a.errcode = 6 ∧ code .stStA (after (exec .mixcA failing)) = some 8 := by decide +kernel

/-! The driver and CTR (V8, V1, V16). -/

/-- V8: round 1 of ENCBLK.A leads from step 0 to step 4 (R200, R201). -/
theorem test_encblkA_round :
    (denoteA (middleRound base.transformsA []
      (vec 16 ctA [0x00, 0x10, 0x20, 0x30, 0x40, 0x50, 0x60, 0x70, 0x80, 0x90, 0xa0, 0xb0, 0xc0, 0xd0, 0xe0, 0xf0])
      1)).toList =
      [0x89, 0xd8, 0x10, 0xe8, 0x85, 0x5a, 0xce, 0x68, 0x2d, 0x18, 0x43, 0xd8, 0xcb, 0x12, 0x8f, 0xe4] := by
  decide +kernel

/-- V8: the same round of ENCBLK.B (R200, R202). -/
theorem test_encblkB_round :
    (denoteB (middleRound base.transformsB []
      (vec 16 bitsOf [0x00, 0x10, 0x20, 0x30, 0x40, 0x50, 0x60, 0x70, 0x80, 0x90, 0xa0, 0xb0, 0xc0, 0xd0, 0xe0, 0xf0])
      1)).toList =
      [0x89, 0xd8, 0x10, 0xe8, 0x85, 0x5a, 0xce, 0x68, 0x2d, 0x18, 0x43, 0xd8, 0xcb, 0x12, 0x8f, 0xe4] := by
  decide +kernel

theorem test_encblk_checks :
    code .encblkB base = some 0 ∧ code .encblkB { base with bx := { base.bx with kv := false } } = some 8 ∧
    code .encblkB failing = some 6 ∧ code .encblkA { base with a := { base.a with ekv := false } } = some 9 := by
  decide +kernel

/-- V1: the first block of the source's own vector. -/
theorem test_ctrA_known_answer :
    (denoteA ((after (exec (.ctrA 1) (loaded scheduleV3))).outA 0)).toList =
      [163, 193, 189, 7, 149, 185, 73, 225, 2, 137, 78, 5, 233, 84, 234, 237] := by decide +kernel

theorem test_ctrA_counts :
    code (.ctrA 0) failing = some 0 ∧ (after (exec (.ctrA 0) base)).a.outn = 0 ∧
    (after (exec (.ctrA 256) base)).a.wrap = false ∧ (after (exec (.ctrA 257) base)).a.wrap = true ∧
    code (.ctrA 258) base = some 10 ∧ code (.ctrA 2) { base with a := { base.a with ptv := [(0, true)] } } = some 8 ∧
    code (.ctrA 2) failing = some 6 ∧ (after (exec (.ctrA 2) failing)).a.outn = 0 := by decide +kernel

theorem test_ctrB_checks :
    code (.ctrB 257) base = some 0 ∧ (after (exec (.ctrB 257) base)).b.wrap = true ∧ code (.ctrB 258) base = some 10 ∧
    code (.ctrB 2) { base with bx := { base.bx with cmhin := 1 } } = some 13 ∧
    code (.ctrB 2) { base with bx := { base.bx with kv := false } } = some 8 ∧ code (.ctrB 0) failing = some 0 ∧
    code (.ctrB 1) failing = some 6 := by decide +kernel

/-- R221: slot 15 is the low counter entry and slot 14 the high one; block 17 on both engines. -/
theorem test_modified_ivs :
    (denoteA (modifiedIvA base [] 17)).toList = [1, 1, 1, 1, 1, 1, 1, 1, 1, 1, 1, 1, 0, 0, 1, 1] ∧
    (denoteA (modifiedIvA base [] 2)).toList = [1, 1, 1, 1, 1, 1, 1, 1, 1, 1, 1, 1, 0, 0, 0, 2] ∧
    (denoteB (modifiedIvB base 18)).toList = [1, 1, 1, 1, 1, 1, 1, 1, 1, 1, 1, 1, 0, 0, 1, 2] := by decide +kernel

/-! DECRYPT.B (V17). -/

theorem test_decryptB :
    responseOf (exec (.decryptB .secretKey 3) (withSt [0, 0, 0, 0x7b])) = some (.ok (.byte 0x7b)) ∧
    responseOf (exec (.decryptB .trivial 3) (withSt [0, 0, 0, 0x7b])) = some (.ok (.byte 0x7b)) := by decide +kernel

theorem test_decryptB_checks :
    code (.decryptB .secretKey 3) { base with bx := { base.bx with skv := false } } = some 11 ∧
    code (.decryptB .secretKey 16) base = some 10 ∧ code (.decryptB .secretKey 0) fresh = some 8 ∧
    code (.decryptB .trivial 3) { base with b := { base.b with st := Vector.replicate 16 BvByte.blank } } = some 5 := by
  decide +kernel

/-! The host commands (V18). -/

theorem test_load_block_sizes :
    [0, 15, 16, 17].map (fun n => code .ldStA (beatsA n fresh)) = [some 2, some 2, some 0, some 2] ∧
    [0, 15, 16, 17].map (fun n => code .ldIvB (beatsB n fresh)) = [some 2, some 2, some 0, some 2] ∧
    (after (exec .ldStB (beatsB 16 fresh))).b.stv = true ∧ stB .ldStB (beatsB 16 fresh) = List.replicate 16 7 ∧
    (after (exec .ldIvA (beatsA 16 fresh))).a.ivv = true := by decide +kernel

/-- Beat `k` goes to slot `k` (R63). -/
theorem test_load_order :
    stA .ldStA { fresh with payload := plainV8.map fun v => .arith (ctA v) } = plainV8 := by decide +kernel

theorem test_load_schedule :
    code .ldRkA (beatsA 176 fresh) = some 0 ∧ code .ldRkA (beatsA 175 fresh) = some 3 ∧
    code .ldRkA (beatsA 176 base) = some 12 ∧ code .ldRkA (beatsA 16 base) = some 3 ∧
    code .ldRkB (beatsB 176 fresh) = some 0 ∧ code .ldRkB (beatsB 176 base) = some 12 := by decide +kernel

theorem test_load_input_block :
    code (.ldPtA 257) (beatsA 16 fresh) = some 10 ∧ code (.ldPtA 257) (beatsA 3 fresh) = some 10 ∧
    code (.ldPtA 256) (beatsA 3 fresh) = some 2 ∧
    (denoteA ((after (exec (.ldPtA 256) (beatsA 16 fresh))).ptA 256)).toList = List.replicate 16 7 ∧
    (after (exec (.ldPtB 256) (beatsB 16 fresh))).b.ptv = [(256, true)] := by decide +kernel

theorem test_load_counter_lists :
    (after (exec .ldCmloB (beatsB 0 base))).bx.cmlon = 0 ∧ (after (exec .ldCmhiB (beatsB 2 fresh))).bx.cmhin = 2 ∧
    BvByte.val ((after (exec .ldCmhiB (beatsB 2 fresh))).cmhi 1) = 7 ∧
    BvByte.val ((after (exec .ldCmloB (beatsB 3 fresh))).cmlo 2) = 7 ∧ code .ldCmloB (beatsB 257 fresh) = some 0 ∧
    code .ldCmloB (beatsB 258 fresh) = some 13 ∧ code .ldCmhiB (beatsB 258 fresh) = some 13 := by decide +kernel

theorem test_load_constants :
    let t := after (exec .ldKonstB { fresh with payload := [.bit (ctB false), .bit (ctB true)] })
    (t.bx.kf, t.bx.kt, t.bx.kv) = (ctB false, ctB true, true) ∧ code .ldKonstB (beatsB 1 fresh) = some 13 ∧
    code .ldKonstB (beatsB 3 fresh) = some 13 := by decide +kernel

theorem test_stores :
    responseOf (exec .stStA base) = some (.ok (.blockA (vec 16 ctA plainV8))) ∧
    responseOf (exec .stStB base) = some (.ok (.blockB (vec 16 bitsOf plainV8))) ∧ code .stStA fresh = some 8 ∧
    code (.stOutA 1) base = some 0 ∧ code (.stOutA 2) base = some 8 ∧ code (.stOutB 2) base = some 8 ∧
    code (.stOutB 257) base = some 10 := by decide +kernel

theorem test_setkey :
    (after (exec .setkeyEkA fresh)).statusA = 0x00000003 ∧ (after (exec .setkeyEkB fresh)).statusB = 0x80000003 ∧
    (after (exec .setkeySkB fresh)).statusB = 0x80000005 ∧ code .setkeyEkA base = some 12 ∧
    code .setkeyEkB base = some 12 ∧ code .setkeySkB base = some 12 := by decide +kernel

/-- P1, P4 and row 7 of V20. -/
theorem test_status_words :
    responseOf (exec .rdstatStatusA { fresh with a := { fresh.a with stv := true, rkv := true, ekv := true } }) =
      some (.ok (.word 0x0000002B)) ∧
    responseOf (exec .rdstatStatusB
      { base with b := { base.b with stv := false, err := true, errcode := 13 }, bx := { base.bx with skv := false } }) =
      some (.ok (.word 0x800D015B)) ∧
    responseOf (exec .rdstatStatusB { fresh with b := { fresh.b with stv := true, err := true, errcode := 4 } }) =
      some (.ok (.word 0x80040121)) := by decide +kernel

theorem test_counts :
    [.rdstatOutnA, .rdstatOutnB, .rdstatCmlonB, .rdstatCmhinB, .rdstatCapA, .rdstatCapB].map
        (fun i => responseOf (exec i { malformed with bx := { base.bx with cmhin := 3 } })) =
      [some (.ok (.word 2)), some (.ok (.word 2)), some (.ok (.word 257)), some (.ok (.word 3)),
        some (.ok (.word 257)), some (.ok (.word 257))] := by decide +kernel

/-- RESET of one engine leaves the other, and answers OK although the table check fails (R263). -/
theorem test_reset :
    (after (exec .resetA base)).a.ekv = false ∧ (after (exec .resetA base)).b.ekv = true ∧
    (after (exec .resetB base)).bx.skv = false ∧ (after (exec .resetB base)).b.rkv = false ∧
    (after (exec .resetB base)).a.rkv = true ∧ code .resetA malformed = some 0 ∧
    (after (exec .resetA malformed)).statusA = 0 ∧ (after (exec .resetB malformed)).statusB = 0x80000000 := by
  decide +kernel

/-- The hardware reset while a command runs: the reset flags of both engines, no response (R340a). -/
theorem test_hardware_reset :
    let t := after (step { base with input := [.hardwareReset (some (0x60000002, []))] })
    (t.a.rkv, t.a.ekv, t.b.rkv, t.bx.skv) = (false, false, false, false) ∧ t.a.ptv = [] ∧ t.b.outn = 0 ∧
    t.response = none ∧ t.input = [] := by decide +kernel

/-! Errors (V20). -/

/-- Rows 1 and 2 of V20: RoundRange comes first of three failing checks, and ERRCODE.B keeps it. -/
theorem test_first_error_is_kept :
    let t := after (exec (.addrkB 11) fresh)
    (t.b.err, t.b.errcode, t.a.err) = (true, 4, false) ∧ code (.addrkB 3) t = some 8 ∧
    (after (exec (.addrkB 3) t)).b.errcode = 4 := by decide +kernel

/-- V17: an illegal word is charged to the engine of bit 27 (R309). -/
theorem test_illegal_words_are_charged :
    (after (step { base with input := [.command 0x90000000 [] false] })).a.errcode = 7 ∧
    (after (step { base with input := [.command 0x98020000 [] false] })).b.errcode = 7 := by decide +kernel

/-! Witnesses: for each statement with hypotheses, a state and operands that meet all of them. -/

/-- A witness state that presents one input. -/
def presenting (x : HostInput) : State := { base with input := [x] }

/-- `base` with the error 4 recorded on both engines. -/
def erred : State :=
  { base with a := { base.a with err := true, errcode := 4 }, b := { base.b with err := true, errcode := 4 } }

/-- A list with entries at 0 to n - 1 is in canonical form if no entry is what an unlisted index reads as. -/
theorem wf_of_entries {α : Type} [DecidableEq α] {d : α} (n : Nat) (f : Nat → α) (h : ∀ i, f i ≠ d) :
    Memory.wf d ((List.range n).map fun i => (i, f i)) := by
  refine ⟨?_, ?_⟩
  · simpa [List.map_map, Function.comp_def] using List.pairwise_lt_range
  · intro e he
    obtain ⟨i, -, rfl⟩ := List.mem_map.1 he
    exact h i

theorem bitsOf_ne_blank (v : Byte) : bitsOf v ≠ BvByte.blank := fun h =>
  Bool.noConfusion (show true = false from congrArg (fun x : BvByte => x[0].triv) h)

theorem rampA_ne_blank : vec 16 ctA ramp ≠ blankBlockA := fun h =>
  absurd (show (1 : Byte) = 0 from congrArg (fun b : Block CtA => b[1].val) h) (by decide)

theorem rampB_ne_blank : vec 16 bitsOf ramp ≠ blankBlockB := fun h =>
  Bool.noConfusion (show true = false from congrArg (fun b : Block BvByte => b[1][0].val) h)

theorem engine_inv {α : Type} [DecidableEq α] {d : Block α} {f : Byte → α} {rk : List Byte} (h : vec 16 f ramp ≠ d) :
    (engine f rk).Inv d 257 where
  pt_wf := ⟨by simp [engine], by simpa [engine] using h⟩
  pt_within := by simp [Memory.within, engine]
  ptv_wf := wf_of_entries 257 (fun _ => true) nofun
  ptv_within := by simp [Memory.within, engine]
  out_wf := Memory.wf_nil
  out_within := Memory.within_nil
  outn_le := by simp [engine]
  no_error := fun _ => rfl
  error_number := nofun

theorem pairwiseDistinct_of_nodup : ∀ {l : List Byte}, l.Nodup → pairwiseDistinct l = true
  | [], _ => rfl
  | x :: xs, h => by
    obtain ⟨hx, hxs⟩ := List.nodup_cons.1 h
    simp [pairwiseDistinct, hx, pairwiseDistinct_of_nodup hxs]

theorem fixedTable_check : tableCheck fixedTable = true := by
  apply pairwiseDistinct_of_nodup
  rw [fixedTable, Vector.toList_ofFn, List.map_ofFn, List.nodup_ofFn]
  intro i j h
  have := congrArg BitVec.toNat h
  simp at this
  omega

theorem base_storageInv : base.StorageInv where
  engine_a := engine_inv rampA_ne_blank
  engine_b := engine_inv rampB_ne_blank
  store_b :=
    { cmlo_wf := wf_of_entries 257 _ fun _ => bitsOf_ne_blank _
      cmlo_within := by simp [Memory.within, base, loaded, counterList]
      cmhi_wf := wf_of_entries 257 _ fun _ => bitsOf_ne_blank _
      cmhi_within := by simp [Memory.within, base, loaded, counterList]
      cmlon_le := Nat.le_refl _
      cmhin_le := Nat.le_refl _ }
  tblok_eq := fixedTable_check.symm

theorem witness_EncodedCommandDecodesToItself :
    (Instr.ctrB 65535).wellFormed ∧ ((Instr.ctrB 65535).isLoad = true ∨ 0 = 0) ∧
    (Instr.ldPtA 0).wellFormed ∧ ((Instr.ldPtA 0).isLoad = true ∨ 17 = 0) := by decide

theorem witness_DecodedWordIsTheEncoding :
    decode 0x9801FFFF 0 = .ok (.decryptB .trivial 65535) ∧ decode 0x78070000 9 = .ok .ldKonstB := by decide

theorem witness_WordSelectsAtMostOneRow :
    (∃ row ∈ opcodeRows, (0x9801FFFF : Word) &&& row.mask = row.pattern ∧ bitField row.pattern 31 28 ≠ 7) ∧
    (∃ row ∈ opcodeRows, (0x70030000 : Word) &&& row.mask = row.pattern ∧ bitField row.pattern 31 28 = 7) ∧
    (∀ row ∈ opcodeRows, (0x10010000 : Word) &&& row.mask ≠ row.pattern) := by decide +kernel

/-- Each clause of R96 on a word and payload of its own, and a legal pair. -/
theorem witness_IllegalCommandsAreRefused :
    (presenting (.command 0 [] false)).input = .command 0 [] false :: [] ∧ illegal 0x00000000 0 ∧
    illegal 0x17000000 0 ∧ illegal 0x70040000 16 ∧ illegal 0x20000001 0 ∧ illegal 0x90000000 0 ∧
    illegal 0x80000000 1 ∧ ¬ illegal 0x70000000 1 ∧ ¬ illegal 0x1800FFFF 0 := by
  refine ⟨rfl, ?_⟩
  unfold illegal
  refine ⟨?_, ?_, ?_, ?_, ?_, ?_, ?_, ?_⟩ <;> decide

theorem witness_StepRunsTheDecodedCommand :
    (presenting (.command 0x78000000 [.bits (bitsOf 7)] true)).input = .command 0x78000000 [.bits (bitsOf 7)] true :: [] ∧
    decode 0x78000000 1 = .ok .ldStB := ⟨rfl, by decide⟩

theorem witness_IdleStepKeepsTheState : base.input = [] := rfl

theorem witness_StepKeepsTheInvariant : (presenting (.command 0x68000002 [] false)).Inv ∧
    ∃ t, step (presenting (.command 0x68000002 [] false)) = .next t ∧ t.response = some (.ok .empty) :=
  ⟨⟨⟨base_storageInv.engine_a, base_storageInv.engine_b, base_storageInv.store_b, base_storageInv.tblok_eq⟩, rfl, rfl⟩,
    next_of_responseOf (by decide +kernel)⟩

theorem witness_HardwareResetClearsBothEngines :
    (presenting (.hardwareReset none)).input = .hardwareReset none :: [] ∧
    (presenting (.hardwareReset (some (0x60000002, [])))).input = .hardwareReset (some (0x60000002, [])) :: [] :=
  ⟨rfl, rfl⟩

theorem witness_TableAndCapacityNeverChange :
    ∃ t, step (presenting (.command 0x60000002 [] false)) = .next t ∧ t.response = some (.ok .empty) :=
  next_of_responseOf (by decide +kernel)

theorem witness_EnginesDoNotInterfere :
    (∃ t, exec (.ctrA 2) base = .next t ∧ t.response = some (.ok .empty)) ∧
    (∃ t, exec .subbB base = .next t ∧ t.response = some (.ok .empty)) ∧
    (∃ t, exec (.ctrA 2) { base with b := fresh.b, bx := fresh.bx } = .next t ∧ t.response = some (.ok .empty)) ∧
    (∃ t, exec .subbB { base with a := fresh.a } = .next t ∧ t.response = some (.ok .empty)) ∧
    base.sameForA { base with b := fresh.b, bx := fresh.bx } ∧ base.sameForB { base with a := fresh.a } ∧
    (Instr.ctrA 2).engine = .A ∧ Instr.subbB.engine = .B :=
  ⟨next_of_responseOf (by decide +kernel), next_of_responseOf (by decide +kernel), next_of_responseOf (by decide +kernel),
    next_of_responseOf (by decide +kernel), ⟨rfl, rfl, rfl, rfl, rfl, rfl, rfl⟩, ⟨rfl, rfl, rfl, rfl, rfl, rfl, rfl, rfl⟩,
    rfl, rfl⟩

theorem witness_ErrorChangesOnlyTheStickyPair :
    (∃ t, exec (.addrkB 11) base = .next t ∧ t.response = some (.error .roundRange)) ∧
    (∃ t, exec (.ctrA 1) failing = .next t ∧ t.response = some (.error .gateFail)) ∧
    (presenting (.command 0 [] false)).input = .command 0 [] false :: [] ∧ illegal 0 0 ∧
    (∃ t, step (presenting (.command 0 [] false)) = .next t ∧ t.response = some (.error .illegalCmd)) :=
  ⟨next_of_responseOf (by decide +kernel), next_of_responseOf (by decide +kernel), rfl, .inl (by decide),
    next_of_responseOf (by decide +kernel)⟩

theorem witness_StickyErrorIsKeptUntilReset :
    (∃ t, step { erred with input := [.command 0x1800000B [] false] } = .next t ∧
      t.response = some (.error .roundRange)) ∧
    erred.a.err = true ∧ erred.b.err = true := ⟨next_of_responseOf (by decide +kernel), rfl, rfl⟩

theorem witness_StickyFlagsInfluenceNoResult :
    base.withoutSticky = erred.withoutSticky ∧
    (∃ t, exec (.ctrA 257) base = .next t ∧ t.response = some (.ok .empty)) ∧
    (∃ t, exec (.ctrA 257) erred = .next t ∧ t.response = some (.ok .empty)) :=
  ⟨rfl, next_of_responseOf (by decide +kernel), next_of_responseOf (by decide +kernel)⟩

theorem witness_KeyMaterialIsImmutableUntilReset :
    base.a.rkv = true ∧ base.b.rkv = true ∧ base.a.ekv = true ∧ base.b.ekv = true ∧ base.bx.skv = true ∧
    ∃ t, exec .ldRkA (beatsA 176 base) = .next t ∧ t.response = some (.error .immutable) :=
  ⟨rfl, rfl, rfl, rfl, rfl, next_of_responseOf (by decide +kernel)⟩

theorem witness_OnlyDecryptReturnsACleartextByte :
    ∃ t, exec (.decryptB .secretKey 15) base = .next t ∧ t.response = some (.ok (.byte 0xff)) :=
  next_of_responseOf (by decide +kernel)

theorem witness_ControlDoesNotDependOnCiphertexts :
    base.sameControl (withSt ramp) ∧ base.a.st[1].val ≠ (withSt ramp).a.st[1].val ∧
    (∃ t, exec .subbB base = .next t ∧ t.response = some (.ok .empty)) ∧
    (∃ t, exec .subbB (withSt ramp) = .next t ∧ t.response = some (.ok .empty)) :=
  ⟨⟨⟨rfl, rfl, rfl, rfl, rfl, rfl, rfl, rfl, rfl⟩, ⟨rfl, rfl, rfl, rfl, rfl, rfl, rfl, rfl, rfl⟩, rfl, rfl, rfl, rfl, rfl,
      rfl, rfl, rfl, rfl⟩,
    by decide +kernel, next_of_responseOf (by decide +kernel),
    next_of_responseOf (by decide +kernel)⟩

/-- A state without a working block on engine A, whose storage there is `b`. -/
def dropping (s : State) (b : Block CtA) : State := { s with a := { s.a with st := b, stv := false } }

/-- A state without a working block on engine A, whose storage there is the bytes `l`; the host presents `w`. -/
def withoutSt (w : Word) (l : List Byte) : State := dropping (presenting (.command w [] false)) (vec 16 ctA l)

theorem withoutSt_inv (w : Word) (l : List Byte) : (withoutSt w l).Inv :=
  ⟨⟨{ base_storageInv.engine_a with }, base_storageInv.engine_b, base_storageInv.store_b, base_storageInv.tblok_eq⟩,
    rfl, rfl⟩

/-- The two states differ in ST.A alone. CTR.A does not read it, and ENCBLK.A is refused. -/
theorem dropping_sameValid (s : State) (b c : Block CtA) : (dropping s b).sameValid (dropping s c) where
  engine_a :=
    { control := ⟨rfl, rfl, rfl, rfl, rfl, rfl, rfl, rfl, rfl⟩
      st := nofun
      iv := fun _ => rfl
      rk := fun _ => rfl
      pt := fun _ _ => rfl
      out := fun _ _ => rfl }
  engine_b :=
    { control := ⟨rfl, rfl, rfl, rfl, rfl, rfl, rfl, rfl, rfl⟩
      st := fun _ => rfl
      iv := fun _ => rfl
      rk := fun _ => rfl
      pt := fun _ _ => rfl
      out := fun _ _ => rfl }
  cmlon := rfl
  cmlo := fun _ _ => rfl
  cmhin := rfl
  cmhi := fun _ _ => rfl
  kv := rfl
  konst := fun _ => ⟨rfl, rfl⟩
  skv := rfl
  sbox := rfl
  tblok := rfl
  cap := rfl
  input := rfl
  payload := rfl
  primfail := rfl
  response := rfl
  fresh := rfl

theorem witness_InvalidContentsInfluenceNothing :
    (withoutSt 0x60000002 plainV8).Inv ∧ (withoutSt 0x60000002 ramp).Inv ∧
    (withoutSt 0x60000002 plainV8).sameValid (withoutSt 0x60000002 ramp) ∧
    (withoutSt 0x60000002 plainV8).a.st[1].val ≠ (withoutSt 0x60000002 ramp).a.st[1].val ∧
    (∃ t, step (withoutSt 0x60000002 plainV8) = .next t ∧ t.response = some (.ok .empty)) ∧
    (∃ t, step (withoutSt 0x60000002 ramp) = .next t ∧ t.response = some (.ok .empty)) ∧
    (withoutSt 0x50000000 plainV8).sameValid (withoutSt 0x50000000 ramp) ∧
    (∃ t, step (withoutSt 0x50000000 ramp) = .next t ∧ t.response = some (.error .notLoaded)) :=
  ⟨withoutSt_inv _ _, withoutSt_inv _ _, dropping_sameValid _ _ _, by decide +kernel,
    next_of_responseOf (by decide +kernel), next_of_responseOf (by decide +kernel), dropping_sameValid _ _ _,
    next_of_responseOf (by decide +kernel)⟩

theorem witness_StorageIsWrittenOnlyByItsCommands :
    (∃ t, exec (.ctrA 1) base = .next t ∧ t.response = some (.ok .empty)) ∧ Space.st ∉ (Instr.ctrA 1).writes ∧
    Instr.subbB.engine = .B ∧ Space.konst ∉ Instr.subbB.writes :=
  ⟨next_of_responseOf (by decide +kernel), by decide, rfl, by decide⟩

theorem witness_CommandsRaiseOnlyTheirErrors :
    ∃ t, exec (.ctrB 258) base = .next t ∧ t.response = some (.error .indexRange) :=
  next_of_responseOf (by decide +kernel)

theorem witness_MalformedTableStopsEveryCommand : malformed.tblok = false ∧ ¬ (Instr.stOutB 0).ignoresTable :=
  ⟨rfl, by simp [Instr.ignoresTable]⟩

theorem witness_CommandsWithoutEvaluationsIgnorePrimfail : ¬ (Instr.ctrA 0).evaluates ∧ ¬ Instr.shrowB.evaluates := by
  simp [Instr.evaluates]

/-- The round index of ADDRK.A at 0, 10 and 11, PRIMFAIL raised and not, and a block with nothing loaded. -/
theorem witness_AddRoundKeyAXorsTheRoundKey :
    inPlaceRefusal base base.a (decide (0 > 10)) true false true = none ∧
    inPlaceRefusal base base.a (decide (10 > 10)) true false true = none ∧ base.primfail = false ∧
    inPlaceRefusal failing failing.a (decide (10 > 10)) true false true = none ∧ failing.primfail = true ∧
    inPlaceRefusal base base.a (decide (11 > 10)) true false true = some .roundRange ∧
    inPlaceRefusal fresh fresh.a (decide (10 > 10)) true false true = some .notLoaded := by decide +kernel

theorem fixedTable_distinct : distinctInputs fixedTable := fun j k hjk h => by
  simp [fixedTable, ← BitVec.toNat_inj] at h
  omega

theorem witness_SubBytesALooksUpTheTable :
    inPlaceRefusal base base.a false false false true = none ∧ base.primfail = false ∧
    inPlaceRefusal failing failing.a false false false true = none ∧ failing.primfail = true ∧
    inPlaceRefusal fresh fresh.a false false false true = some .notLoaded ∧ distinctInputs base.sbox ∧ base.fixedSbox ∧
    base.sbox[255].1 = base.a.st[15].val :=
  ⟨by decide +kernel, rfl, by decide +kernel, rfl, by decide +kernel, fixedTable_distinct, rfl, by decide +kernel⟩

theorem witness_ShiftRowsAMovesTheCiphertexts :
    inPlaceRefusal failing failing.a false false false false = none ∧
    inPlaceRefusal fresh fresh.a false false false false = some .notLoaded := by decide +kernel

theorem witness_MixColumnsAFollowsTheColumnFormula :
    inPlaceRefusal base base.a false false false true = none ∧ base.primfail = false ∧
    inPlaceRefusal failing failing.a false false false true = none ∧ failing.primfail = true ∧
    inPlaceRefusal { base with a := { base.a with ekv := false } } { base.a with ekv := false } false false false true =
      some .noEvalKey := by decide +kernel

theorem witness_EncryptBlockAEncrypts :
    inPlaceRefusal base base.a false true false true = none ∧ base.primfail = false ∧ base.fixedSbox ∧
    inPlaceRefusal failing failing.a false true false true = none ∧ failing.primfail = true ∧
    inPlaceRefusal malformed malformed.a false true false true = some .tableMalformed :=
  ⟨by decide +kernel, rfl, rfl, by decide +kernel, rfl, by decide +kernel⟩

theorem failing_storageInv : failing.StorageInv :=
  ⟨base_storageInv.engine_a, base_storageInv.engine_b, base_storageInv.store_b, base_storageInv.tblok_eq⟩

/-- CTR.A of 0, 257 and 258 blocks, PRIMFAIL raised and not. -/
theorem witness_CtrAComposesTheBlocks :
    ctrRefusalA base 257 = none ∧ base.primfail = false ∧ base.StorageInv ∧ base.fixedSbox ∧
    ctrRefusalA failing 0 = none ∧ failing.primfail = true ∧ failing.StorageInv ∧ ctrRefusalA failing 257 = none ∧
    ctrRefusalA base 258 = some .indexRange ∧ ctrRefusalA fresh 0 = some .notLoaded :=
  ⟨by decide +kernel, rfl, base_storageInv, rfl, by decide +kernel, rfl, failing_storageInv, by decide +kernel,
    by decide +kernel, by decide +kernel⟩

theorem witness_AddRoundKeyBXorsTheRoundKey :
    inPlaceRefusal base base.b (decide (0 > 10)) true false true = none ∧
    inPlaceRefusal base base.b (decide (10 > 10)) true false true = none ∧ base.primfail = false ∧
    inPlaceRefusal failing failing.b (decide (10 > 10)) true false true = none ∧ failing.primfail = true ∧
    inPlaceRefusal base base.b (decide (11 > 10)) true false true = some .roundRange := by decide +kernel

theorem witness_SubBytesBSubstitutesEveryByte :
    inPlaceRefusal base base.b false false false true = none ∧ base.primfail = false ∧
    inPlaceRefusal failing failing.b false false false true = none ∧ failing.primfail = true ∧
    inPlaceRefusal fresh fresh.b false false false true = some .notLoaded := by decide +kernel

theorem witness_ShiftRowsBMovesTheCiphertexts :
    inPlaceRefusal failing failing.b false false false false = none ∧
    inPlaceRefusal fresh fresh.b false false false false = some .notLoaded := by decide +kernel

/-- The host duty on the constants holds at `base`. -/
theorem witness_MixColumnsBFollowsTheColumnFormula :
    inPlaceRefusal base base.b false false true true = none ∧ base.primfail = false ∧ base.konstDuty ∧
    inPlaceRefusal failing failing.b false false true true = none ∧ failing.primfail = true ∧
    inPlaceRefusal fresh fresh.b false false true true = some .notLoaded :=
  ⟨by decide +kernel, rfl, ⟨rfl, rfl⟩, by decide +kernel, rfl, by decide +kernel⟩

theorem witness_EncryptBlockBEncrypts :
    inPlaceRefusal base base.b false true true true = none ∧ base.primfail = false ∧ base.konstDuty ∧
    inPlaceRefusal failing failing.b false true true true = none ∧ failing.primfail = true ∧
    inPlaceRefusal fresh fresh.b false true true true = some .notLoaded :=
  ⟨by decide +kernel, rfl, ⟨rfl, rfl⟩, by decide +kernel, rfl, by decide +kernel⟩

theorem bitsOf_val (v : Byte) : BvByte.val (bitsOf v) = v := by
  apply BitVec.eq_of_getLsbD_eq
  intro i hi
  simp [BvByte.val, bitsOf, ctB, hi]

theorem read_of_entries {α : Type} {d : α} (f : Nat → α) : ∀ {k n i : Nat}, k ≤ i → i < k + n →
    Memory.read d ((List.range' k n).map fun i => (i, f i)) i = f i
  | _, 0, _, h, h' => absurd h' (by omega)
  | k, n + 1, i, h, h' => by
    simp only [List.range'_succ, List.map_cons, Memory.read]
    split
    · rename_i e
      rw [e]
    · exact read_of_entries f (by omega) (by omega)

theorem base_counterDuty : base.counterDuty 257 := fun i hi => by
  have h (f : Nat → Nat) : Memory.read BvByte.blank (counterList f) i = bitsOf (BitVec.ofNat 8 (f i)) := by
    rw [counterList, List.range_eq_range']
    exact read_of_entries (fun i => bitsOf (BitVec.ofNat 8 (f i))) (Nat.zero_le i) (by omega)
  exact ⟨(congrArg BvByte.val (h (· % 16))).trans (bitsOf_val _), (congrArg BvByte.val (h (· / 16 % 16))).trans (bitsOf_val _)⟩

/-- CTR.B of 0, 257 and 258 blocks, PRIMFAIL raised and not, and a counter list one entry short. -/
theorem witness_CtrBComposesTheBlocks :
    ctrRefusalB base 257 = none ∧ base.primfail = false ∧ base.StorageInv ∧ base.konstDuty ∧ base.counterDuty 257 ∧
    ctrRefusalB failing 0 = none ∧ failing.primfail = true ∧ failing.StorageInv ∧ ctrRefusalB failing 257 = none ∧
    ctrRefusalB base 258 = some .indexRange ∧
    ctrRefusalB { base with bx := { base.bx with cmlon := 1 } } 2 = some .sizeList :=
  ⟨by decide +kernel, rfl, base_storageInv, ⟨rfl, rfl⟩, base_counterDuty, by decide +kernel, rfl, failing_storageInv,
    by decide +kernel, by decide +kernel, by decide +kernel⟩

/-- Index 15 and 16, both modes, with and without the secret key. -/
theorem witness_DecryptBReturnsTheDenotedByte :
    decryptRefusal base .secretKey 15 = none ∧ decryptRefusal base .trivial 15 = none ∧
    decryptRefusal base .secretKey 16 = some .indexRange ∧
    decryptRefusal { base with bx := { base.bx with skv := false } } .secretKey 0 = some .noSecretKey ∧
    decryptRefusal { base with b := { base.b with st := Vector.replicate 16 BvByte.blank } } .trivial 0 =
      some .decryptMismatch := by decide +kernel

theorem witness_LoadWorkingBlockStoresThePayload :
    loadBlockRefusal (beatsA 16 base) = none ∧ (beatsA 16 base).payload[15]? = some (.arith (ctA 7)) ∧
    loadBlockRefusal (beatsB 16 base) = none ∧ (beatsB 16 base).payload[15]? = some (.bits (bitsOf 7)) ∧
    loadBlockRefusal (beatsA 15 base) = some .sizeBlock := by decide +kernel

theorem witness_LoadIvStoresThePayload :
    loadBlockRefusal (beatsA 16 fresh) = none ∧ (beatsA 16 fresh).payload[0]? = some (.arith (ctA 7)) ∧
    loadBlockRefusal (beatsB 16 fresh) = none ∧ (beatsB 16 fresh).payload[0]? = some (.bits (bitsOf 7)) ∧
    loadBlockRefusal (beatsA 17 fresh) = some .sizeBlock := by decide +kernel

theorem witness_LoadScheduleStoresThePayloadOnce :
    loadScheduleRefusal (beatsA 176 fresh) fresh.a.rkv = none ∧
    (beatsA 176 fresh).payload[175]? = some (.arith (ctA 7)) ∧
    loadScheduleRefusal (beatsB 176 fresh) fresh.b.rkv = none ∧
    (beatsB 176 fresh).payload[175]? = some (.bits (bitsOf 7)) ∧
    loadScheduleRefusal (beatsA 176 base) base.a.rkv = some .immutable ∧
    loadScheduleRefusal (beatsB 175 base) base.b.rkv = some .sizeSchedule := by decide +kernel

theorem storageInv_of_payload {s : State} (h : s.StorageInv) (p : List Beat) : State.StorageInv { s with payload := p } :=
  ⟨h.engine_a, h.engine_b, h.store_b, h.tblok_eq⟩

/-- Index 256 is the last of the capacity 257. -/
theorem witness_LoadInputBlockStoresThePayload :
    loadPtRefusal (beatsA 16 base) 256 = none ∧ (beatsA 16 base).StorageInv ∧
    (beatsA 16 base).payload[15]? = some (.arith (ctA 7)) ∧ loadPtRefusal (beatsB 16 base) 256 = none ∧
    (beatsB 16 base).StorageInv ∧ (beatsB 16 base).payload[15]? = some (.bits (bitsOf 7)) ∧
    loadPtRefusal (beatsA 16 base) 257 = some .indexRange ∧ loadPtRefusal (beatsA 0 base) 0 = some .sizeBlock :=
  ⟨by decide +kernel, storageInv_of_payload base_storageInv _, by decide +kernel, by decide +kernel,
    storageInv_of_payload base_storageInv _, by decide +kernel, by decide +kernel, by decide +kernel⟩

/-- Lists of 0 and of 257 entries load; one of 258 does not. -/
theorem witness_LoadCounterListsStoresThePayload :
    loadCounterRefusal (beatsB 257 base) = none ∧ (beatsB 257 base).StorageInv ∧
    (beatsB 257 base).payload[256]? = some (.bits (bitsOf 7)) ∧ loadCounterRefusal (beatsB 0 base) = none ∧
    (beatsB 0 base).StorageInv ∧ loadCounterRefusal (beatsB 258 base) = some .sizeList :=
  ⟨by decide +kernel, storageInv_of_payload base_storageInv _, by decide +kernel, by decide +kernel,
    storageInv_of_payload base_storageInv _, by decide +kernel⟩

theorem witness_LoadConstantsStoresThePayload :
    let s := { fresh with payload := [.bit (ctB false), .bit (ctB true)] }
    loadKonstRefusal s = none ∧ s.payload[0]? = some (.bit (ctB false)) ∧ s.payload[1]? = some (.bit (ctB true)) ∧
    loadKonstRefusal (beatsB 3 fresh) = some .sizeList := by decide +kernel

theorem witness_StoreWorkingBlockReturnsTheBlock :
    storeStRefusal base base.a.stv = none ∧ storeStRefusal base base.b.stv = none ∧
    storeStRefusal fresh fresh.a.stv = some .notLoaded ∧ storeStRefusal fresh fresh.b.stv = some .notLoaded := by
  decide +kernel

/-- OUTN is 2 at `base`, so that index 1 is the last that can be read. -/
theorem witness_StoreOutputBlockReturnsTheBlock :
    storeOutRefusal base base.a.outn 1 = none ∧ storeOutRefusal base base.b.outn 1 = none ∧
    storeOutRefusal base base.a.outn 2 = some .notLoaded ∧ storeOutRefusal base base.b.outn 257 = some .indexRange := by
  decide +kernel

theorem witness_SetkeyAttachesAKeyOnce :
    setkeyRefusal fresh fresh.a.ekv = none ∧ setkeyRefusal fresh fresh.b.ekv = none ∧
    setkeyRefusal fresh fresh.bx.skv = none ∧ setkeyRefusal base base.a.ekv = some .immutable ∧
    setkeyRefusal base base.b.ekv = some .immutable ∧ setkeyRefusal base base.bx.skv = some .immutable := by
  decide +kernel

theorem witness_ReadCountsReturnsTheCounts : base.StorageInv := base_storageInv

/-- Both values of the top bit, and constants that keep and that break the host duty. -/
theorem witness_DoubleBObeysItsBitLaw : (ctB false).val = false ∧ (ctB true).val = true ∧ (bitsOf 0x80)[7].val = true :=
  ⟨rfl, rfl, rfl⟩

theorem witness_DoubleAIsFieldDoubling : (doubleA [] (ctA 0x57)).val = (doubleA [1] (ctA 0x57)).val := rfl

theorem witness_ColumnFunctionIsTheMatrixProduct : ∀ k : Fin 4, (vec 4 ctA [0xc6, 0xc6, 0xc6, 0xc6])[k].val = 0xc6 := by
  decide

theorem witness_EncseqEqualsEncblk :
    State.input { base with input := encseqA.map present } = encseqA.map present ++ [] ∧
    State.input { base with input := encseqB.map present } = encseqB.map present ++ [] ∧ base.primfail = false ∧
    inPlaceRefusal base base.a false true false true = none ∧ inPlaceRefusal base base.b false true true true = none ∧
    (∃ t, exec .encblkA { base with input := encseqA.map present } = .next t ∧ t.response = some (.ok .empty)) ∧
    (∃ t, exec .encblkB { base with input := encseqB.map present } = .next t ∧ t.response = some (.ok .empty)) :=
  ⟨(List.append_nil _).symm, (List.append_nil _).symm, rfl, by decide +kernel, by decide +kernel,
    next_of_responseOf (by decide +kernel), next_of_responseOf (by decide +kernel)⟩

theorem denote_vecA (n : Nat) (l : List Byte) : denoteA (vec n ctA l) = vec n id l := by
  ext i
  simp [denoteA, vec, ctA]

theorem denote_vecB (n : Nat) (l : List Byte) : denoteB (vec n bitsOf l) = vec n id l := by
  ext i
  simp [denoteB, vec, bitsOf_val]

/-- V7 is the schedule that R206 gives for the key 00 01 .. 0f. -/
theorem test_scheduleV7 : vec 176 id scheduleV7 = Reference.keyExpansion (vec 16 id ramp) := by decide +kernel

/-- The key and block of V8. -/
theorem witness_BothEnginesComputeAes128 :
    base.fixedSbox ∧ base.konstDuty ∧ denoteA base.a.rk = Reference.keyExpansion (vec 16 id ramp) ∧
    denoteB base.b.rk = Reference.keyExpansion (vec 16 id ramp) ∧ denoteA base.a.st = vec 16 id plainV8 ∧
    denoteB base.b.st = vec 16 id plainV8 ∧
    (∃ t, exec .encblkA base = .next t ∧ t.response = some (.ok .empty)) ∧
    (∃ t, exec .encblkB base = .next t ∧ t.response = some (.ok .empty)) :=
  ⟨rfl, ⟨rfl, rfl⟩, (denote_vecA 176 _).trans test_scheduleV7, (denote_vecB 176 _).trans test_scheduleV7,
    denote_vecA 16 _, denote_vecB 16 _, next_of_responseOf (by decide +kernel), next_of_responseOf (by decide +kernel)⟩

theorem base_pt (i : Nat) : denoteA (base.ptA i) = denoteB (base.ptB i) := by
  match i with
  | 0 => exact (denote_vecA 16 ramp).trans (denote_vecB 16 ramp).symm
  | 1 => exact (denote_vecA 16 ramp).trans (denote_vecB 16 ramp).symm
  | i + 2 =>
    show denoteA blankBlockA = denoteB blankBlockB
    decide

/-- 257 blocks on both engines with the same denoted inputs. -/
theorem witness_CtrAgreesOnBothEngines :
    base.StorageInv ∧ base.fixedSbox ∧ base.konstDuty ∧ base.counterDuty 257 ∧
    denoteA base.a.rk = denoteB base.b.rk ∧ denoteA base.a.iv = denoteB base.b.iv ∧
    (∀ i < 257, denoteA (base.ptA i) = denoteB (base.ptB i)) ∧
    (∃ t, exec (.ctrA 257) base = .next t ∧ t.response = some (.ok .empty)) ∧
    (∃ t, exec (.ctrB 257) base = .next t ∧ t.response = some (.ok .empty)) :=
  ⟨base_storageInv, rfl, ⟨rfl, rfl⟩, base_counterDuty, (denote_vecA 176 _).trans (denote_vecB 176 _).symm,
    (denote_vecA 16 _).trans (denote_vecB 16 _).symm, fun i _ => base_pt i, next_of_responseOf (by decide +kernel),
    next_of_responseOf (by decide +kernel)⟩

/-- 257 blocks, of which block 256 uses the counter of block 0. -/
theorem witness_CounterWrapRepeatsTheKeystream :
    ctrRefusalA base 257 = none ∧ ctrRefusalB base 257 = none ∧ base.primfail = false ∧
    base.StorageInv ∧ base.fixedSbox ∧ base.counterDuty 257 ∧
    (∃ t, exec (.ctrA 257) base = .next t ∧ t.response = some (.ok .empty)) ∧
    (∃ t, exec (.ctrB 257) base = .next t ∧ t.response = some (.ok .empty)) ∧ 0 + 256 < 257 :=
  ⟨by decide +kernel, by decide +kernel, rfl, base_storageInv, rfl, base_counterDuty,
    next_of_responseOf (by decide +kernel), next_of_responseOf (by decide +kernel), by decide⟩

/-- `base` with slot 15 of both IVs changed: the last corner case of V16. -/
def otherIv : State :=
  { base with
    a := { base.a with iv := base.a.iv.set 15 (ctA 0x55) }
    b := { base.b with iv := base.b.iv.set 15 (bitsOf 0x55) } }

theorem inv_withIv {α : Type} [DecidableEq α] {d : Block α} {n : Nat} {e : Engine α} (h : e.Inv d n) (b : Block α) :
    Engine.Inv d n { e with iv := b } := { h with }

/-- Block 1 of two commands of 2 and of 257 blocks, whose IVs differ in slot 15. -/
theorem witness_CtrBlocksAreIndependent :
    base.StorageInv ∧ otherIv.StorageInv ∧ base.fixedSbox ∧ otherIv.fixedSbox ∧ base.a.rk = otherIv.a.rk ∧
    base.b.rk = otherIv.b.rk ∧ (∀ j : Fin 16, j.val < 14 → base.a.iv[j] = otherIv.a.iv[j]) ∧
    (∀ j : Fin 16, j.val < 14 → base.b.iv[j] = otherIv.b.iv[j]) ∧ base.a.iv[15].val ≠ otherIv.a.iv[15].val ∧
    base.ptA 1 = otherIv.ptA 1 ∧ base.ptB 1 = otherIv.ptB 1 ∧ base.bx = otherIv.bx ∧
    (∃ t, exec (.ctrA 2) base = .next t ∧ t.response = some (.ok .empty)) ∧
    (∃ t, exec (.ctrA 257) otherIv = .next t ∧ t.response = some (.ok .empty)) ∧
    (∃ t, exec (.ctrB 2) base = .next t ∧ t.response = some (.ok .empty)) ∧
    (∃ t, exec (.ctrB 257) otherIv = .next t ∧ t.response = some (.ok .empty)) :=
  ⟨base_storageInv, ⟨inv_withIv base_storageInv.engine_a _, inv_withIv base_storageInv.engine_b _,
      base_storageInv.store_b, base_storageInv.tblok_eq⟩, rfl, rfl, rfl, rfl, by decide +kernel, by decide +kernel, by decide +kernel, rfl, rfl, rfl,
    next_of_responseOf (by decide +kernel), next_of_responseOf (by decide +kernel), next_of_responseOf (by decide +kernel),
    next_of_responseOf (by decide +kernel)⟩

/-- A state with the input blocks `ma` and `mb`. -/
def withPt (s : State) (ma : Memory (Block CtA)) (mb : Memory (Block BvByte)) : State :=
  { s with a := { s.a with pt := ma }, b := { s.b with pt := mb } }

theorem withPt_ptA (s : State) (ma : Memory (Block CtA)) (mb : Memory (Block BvByte)) (i : Nat) :
    (withPt s ma mb).ptA i = Memory.read blankBlockA ma i := rfl

theorem withPt_ptB (s : State) (ma : Memory (Block CtA)) (mb : Memory (Block BvByte)) (i : Nat) :
    (withPt s ma mb).ptB i = Memory.read blankBlockB mb i := rfl

theorem withPt_rest (s : State) (ma : Memory (Block CtA)) (mb : Memory (Block BvByte)) :
    s.a.rk = (withPt s ma mb).a.rk ∧ s.a.iv = (withPt s ma mb).a.iv ∧ s.b.rk = (withPt s ma mb).b.rk ∧
    s.b.iv = (withPt s ma mb).b.iv ∧ s.bx = (withPt s ma mb).bx ∧ s.sbox = (withPt s ma mb).sbox :=
  ⟨rfl, rfl, rfl, rfl, rfl, rfl⟩

/-- `base` with the output of CTR of one block on both engines as input block 0. -/
def feedback : State :=
  withPt base (Memory.fill blankBlockA [] 1 (after (exec (.ctrA 1) base)).outA)
    (Memory.fill blankBlockB [] 1 (after (exec (.ctrB 1) base)).outB)

theorem inv_withPt {α : Type} [DecidableEq α] {d : Block α} {n : Nat} {e : Engine α} (h : e.Inv d n)
    {m : Memory (Block α)} (hm : Memory.wf d m) (hn : Memory.within n m) : Engine.Inv d n { e with pt := m } :=
  { h with pt_wf := hm, pt_within := hn }

theorem feedback_storageInv : feedback.StorageInv :=
  ⟨inv_withPt base_storageInv.engine_a (Memory.fill_wf Memory.wf_nil _ _)
      (Memory.within_fill Memory.within_nil _ (Nat.le_add_left 1 256)),
    inv_withPt base_storageInv.engine_b (Memory.fill_wf Memory.wf_nil _ _)
      (Memory.within_fill Memory.within_nil _ (Nat.le_add_left 1 256)),
    base_storageInv.store_b, base_storageInv.tblok_eq⟩

/-- The input block 0 of `feedback` is what CTR of one block put out. -/
theorem feedback_ptA {t : State} (h : exec (.ctrA 1) base = .next t) : feedback.ptA 0 = t.outA 0 := by
  rw [feedback, withPt_ptA, Memory.read_fill Memory.wf_nil, if_pos Nat.one_pos, h, after]

theorem feedback_ptB {t : State} (h : exec (.ctrB 1) base = .next t) : feedback.ptB 0 = t.outB 0 := by
  rw [feedback, withPt_ptB, Memory.read_fill Memory.wf_nil, if_pos Nat.one_pos, h, after]

theorem witness_CtrIsItsOwnInverse :
    base.StorageInv ∧ feedback.StorageInv ∧ base.fixedSbox ∧ feedback.fixedSbox ∧ base.a.rk = feedback.a.rk ∧
    base.a.iv = feedback.a.iv ∧ base.b.rk = feedback.b.rk ∧ base.b.iv = feedback.b.iv ∧ base.bx = feedback.bx ∧
    (∃ t, exec (.ctrA 1) base = .next t ∧ t.response = some (.ok .empty) ∧ feedback.ptA 0 = t.outA 0) ∧
    (∃ t, exec (.ctrA 1) feedback = .next t ∧ t.response = some (.ok .empty)) ∧
    (∃ t, exec (.ctrB 1) base = .next t ∧ t.response = some (.ok .empty) ∧ feedback.ptB 0 = t.outB 0) ∧
    (∃ t, exec (.ctrB 1) feedback = .next t ∧ t.response = some (.ok .empty)) := by
  obtain ⟨ta, ha, ra⟩ := next_of_responseOf (r := exec (.ctrA 1) base) (x := .ok .empty) (by decide +kernel)
  obtain ⟨tb, hb, rb⟩ := next_of_responseOf (r := exec (.ctrB 1) base) (x := .ok .empty) (by decide +kernel)
  obtain ⟨h1, h2, h3, h4, h5, h6⟩ := withPt_rest base (Memory.fill blankBlockA [] 1 (after (exec (.ctrA 1) base)).outA)
    (Memory.fill blankBlockB [] 1 (after (exec (.ctrB 1) base)).outB)
  refine ⟨base_storageInv, feedback_storageInv, rfl, h6.symm, h1, h2, h3, h4, h5, ⟨ta, ha, ra, ?_⟩,
    next_of_responseOf (by decide +kernel), ⟨tb, hb, rb, ?_⟩, next_of_responseOf (by decide +kernel)⟩
  · exact feedback_ptA ha
  · exact feedback_ptB hb

end Sys2Proof.Tests
end

section
/-! The status word of R32, bit by bit, and the two commands RDSTAT.STATUS that return it (R262). -/

namespace Sys2Proof.Machine

/-- The field of R10 as a slice of the word, the form in which the library speaks of parts of a `++`. -/
theorem bitField_eq_toNat_extractLsb' (w : Word) (hi lo : Nat) :
    bitField w hi lo = (w.extractLsb' lo (hi + 1 - lo)).toNat := by
  rw [bitField, BitVec.extractLsb'_toNat, Nat.shiftRight_eq_div_pow]

section StatusWord
variable {α : Type} (eng skv kv tblok : Bool) (e : Engine α)

/-- The one-bit entries of R32. -/
theorem statusWord_flags :
    [0, 1, 2, 3, 4, 5, 6, 7, 8, 31].map (statusWord eng skv kv tblok e).getLsbD =
      [tblok, e.ekv, skv, e.rkv, e.ivv, e.stv, kv, e.wrap, e.err, eng] := by
  simp only [statusWord, List.map, BitVec.getLsbD_append]
  simp

/-- The wider entries of R32, ERRCODE and the reserved bits below and above it: each is one part of the `++`, reached by
dropping the parts below it. -/
theorem statusWord_fields :
    bitField (statusWord eng skv kv tblok e) 15 9 = 0 ∧
    bitField (statusWord eng skv kv tblok e) 23 16 = e.errcode.toNat ∧
    bitField (statusWord eng skv kv tblok e) 30 24 = 0 := by
  simp only [bitField_eq_toNat_extractLsb', Nat.reduceAdd, Nat.reduceSub]
  refine ⟨?_, ?_, ?_⟩ <;>
    simp (disch := decide) only [statusWord, BitVec.extractLsb'_append_eq_of_le, BitVec.extractLsb'_append_eq_right,
      Nat.reduceSub, BitVec.ofNat_eq_ofNat, BitVec.toNat_ofNat, Nat.zero_mod]

end StatusWord

/-- RDSTAT.STATUS.A has no check and no effect: it answers OK with `STATUS.A`. -/
theorem exec_rdstatStatusA (s : State) : exec .rdstatStatusA s = .next (s.completed (.word s.statusA)) :=
  runPlain_ok (e := .A) firstError_nil

/-- RDSTAT.STATUS.B has no check and no effect: it answers OK with `STATUS.B`. -/
theorem exec_rdstatStatusB (s : State) : exec .rdstatStatusB s = .next (s.completed (.word s.statusB)) :=
  runPlain_ok (e := .B) firstError_nil

/-- Settles O49: both commands answer with the word of `statusWord`, whose entries are those of R32. -/
theorem readStatusReturnsTheStatusWord : Obligations.ReadStatusReturnsTheStatusWord := by
  refine ⟨by decide, by decide, fun s => ⟨s.statusA, s.statusB, exec_rdstatStatusA s, exec_rdstatStatusB s,
    statusWord_flags .., statusWord_flags .., ?_⟩⟩
  obtain ⟨lowA, errcodeA, highA⟩ := statusWord_fields false false false s.tblok s.a
  obtain ⟨lowB, errcodeB, highB⟩ := statusWord_fields true s.bx.skv s.bx.kv s.tblok s.b
  exact ⟨lowA, errcodeA, highA, lowB, errcodeB, highB⟩

end Sys2Proof.Machine
end

section
/-! The opcode map of R99 against the decoder: the fields of each command's word, the commands whose words each row
matches, and why no two rows meet. -/

namespace Sys2Proof

/-- The fields of a command's word: those of its fixed bits, with its operand in ARG (R90 to R93). -/
def Instr.fields (i : Instr) : Fields := { fieldsOf i.pattern with arg := i.arg }

/-- The fields as numbers, the form in which they can be computed. -/
theorem Instr.fields_eq (i : Instr) :
    i.fields =
      ⟨i.pattern.toNat / 2 ^ 28 % 2 ^ 4, if i.pattern.toNat / 2 ^ 27 % 2 ^ 1 = 0 then .A else .B,
        i.pattern.toNat / 2 ^ 24 % 2 ^ 3, i.pattern.toNat / 2 ^ 16 % 2 ^ 8, i.arg⟩ := rfl

end Sys2Proof

namespace Sys2Proof.Machine

section Combinators
variable {f : Fields} {i j : Instr} {a b r : Except Illegal Instr}

@[simp] theorem needArgZero_eq_ok_iff : needArgZero f j = .ok i ↔ f.arg = 0 ∧ j = i := by
  by_cases h : f.arg = 0 <;> simp [needArgZero, h]

@[simp] theorem needSelZero_eq_ok_iff : needSelZero f r = .ok i ↔ f.sel = 0 ∧ r = .ok i := by
  by_cases h : f.sel = 0 <;> simp [needSelZero, h]

@[simp] theorem byEngine_eq_ok_iff : byEngine f a b = .ok i ↔ f.eng = .A ∧ a = .ok i ∨ f.eng = .B ∧ b = .ok i := by
  cases h : f.eng <;> simp [byEngine, h]

@[simp] theorem engineBOnly_eq_ok_iff : engineBOnly f b = .ok i ↔ f.eng = .B ∧ b = .ok i := by
  simp [engineBOnly]

end Combinators

section Decoder
variable {eng : EngineId} {sel arg : Nat} {f : Fields} {i : Instr}

theorem fields_of_decodeDecrypt (h : decodeDecrypt ⟨9, eng, 0, sel, arg⟩ = .ok i) :
    i.fields = ⟨9, eng, 0, sel, arg⟩ := by
  obtain ⟨heng, h⟩ : eng = .B ∧ _ := by simpa [decodeDecrypt] using h
  split at h <;> cases h <;> simp [heng, Instr.fields_eq, Instr.pattern, Instr.arg]

/-- The decoder answers a command only for the command's own fields. By OP: the operations with a SEL table of their own
are split by SEL, the others require SEL = 0; each leaf then fixes the engine and, where R93 says so, ARG = 0. -/
theorem fields_of_decodeFields (h : decodeFields f = .ok i) : i.fields = f := by
  obtain ⟨op, eng, rsv, sel, arg⟩ := f
  obtain rfl : rsv = 0 := by
    by_contra hrsv
    simp [decodeFields, hrsv] at h
  rw [decodeFields, if_pos rfl] at h
  simp only at h
  split at h
  case h_7 | h_8 | h_10 | h_11 =>
    simp only [decodeLoad, decodeStore, decodeSetkey, decodeRdstat] at h
    split at h <;> simp at h
    all_goals
      casesm* _ ∨ _, _ ∧ _ <;> subst_vars <;> simp [Instr.fields_eq, Instr.pattern, Instr.arg]
  case h_9 => exact fields_of_decodeDecrypt h
  case h_13 => cases h
  all_goals
    simp at h
    casesm* _ ∨ _, _ ∧ _ <;> subst_vars <;> simp [Instr.fields_eq, Instr.pattern, Instr.arg]

/-- The fields of every command decode to it. -/
theorem decodeFields_fields (i : Instr) : decodeFields i.fields = .ok i := by
  cases i
  case decryptB mode idx => cases mode <;> simp [Instr.fields_eq, Instr.pattern, Instr.arg, decodeFields, decodeDecrypt]
  all_goals
    simp [Instr.fields_eq, Instr.pattern, Instr.arg, decodeFields, decodeLoad, decodeStore, decodeSetkey, decodeRdstat]

theorem decodeFields_eq_ok_iff : decodeFields f = .ok i ↔ f = i.fields :=
  ⟨fun h => (fields_of_decodeFields h).symm, fun h => h ▸ decodeFields_fields i⟩

/-- The whole decoder: a word is a command's exactly when it has the command's fields, and only a load carries a payload
(R94, R96). -/
theorem decode_eq_ok_iff {w : Word} {n : Nat} :
    decode w n = .ok i ↔ fieldsOf w = i.fields ∧ (i.isLoad = true ∨ n = 0) := by
  rw [← decodeFields_eq_ok_iff, decode]
  cases decodeFields (fieldsOf w) with
  | error e => simp
  | ok j => grind

theorem decode_error_of_not_ok {w : Word} {n : Nat} (h : ∀ i, decode w n ≠ .ok i) : ∃ e, decode w n = .error e := by
  cases hd : decode w n with
  | error e => exact ⟨e, rfl⟩
  | ok i => exact absurd hd (h i)

/-- The loads are the commands of OP 0x7 (R91). -/
theorem isLoad_iff_op (i : Instr) : i.isLoad = true ↔ i.fields.op = 7 := by
  cases i
  case decryptB mode idx => cases mode <;> simp [Instr.isLoad, Instr.fields_eq, Instr.pattern]
  all_goals simp [Instr.isLoad, Instr.fields_eq, Instr.pattern]

end Decoder

section Words
variable {w v p : Word} {i : Instr}

/-- A mask leaves the fields that it covers as they are. -/
theorem bitField_and (w m : Word) (hi lo : Nat) (h : m.extractLsb' lo (hi + 1 - lo) = BitVec.allOnes _) :
    bitField (w &&& m) hi lo = bitField w hi lo := by
  rw [bitField_eq_toNat_extractLsb', BitVec.extractLsb'_and, h, BitVec.and_allOnes, bitField_eq_toNat_extractLsb']

/-- The mask that leaves ARG free keeps every other field. -/
theorem fieldsOf_of_and_upper (h : w &&& 0xffff0000 = p) : fieldsOf w = { fieldsOf p with arg := bitField w 15 0 } := by
  subst h
  simp only [fieldsOf, engineOf, bitField_and w 0xffff0000 31 28 rfl,
    bitField_and w 0xffff0000 27 27 rfl,
    bitField_and w 0xffff0000 26 24 rfl,
    bitField_and w 0xffff0000 23 16 rfl]

theorem engineOf_eq_A_iff : engineOf w = .A ↔ bitField w 27 27 = 0 := by
  by_cases h : bitField w 27 27 = 0 <;> simp [engineOf, h]

/-- ENG is one bit, so the engine it selects determines it. -/
theorem bitField_eng_of_engineOf (h : engineOf w = engineOf v) : bitField w 27 27 = bitField v 27 27 := by
  have hw : bitField w 27 27 < 2 := Nat.mod_lt _ (by decide)
  have hv : bitField v 27 27 < 2 := Nat.mod_lt _ (by decide)
  have hzero : bitField w 27 27 = 0 ↔ bitField v 27 27 = 0 := by rw [← engineOf_eq_A_iff, h, engineOf_eq_A_iff]
  omega

/-- The fields of format C cover the word (R90). -/
theorem fieldsOf_injective (h : fieldsOf w = fieldsOf v) : w = v := by
  simp only [fieldsOf, Fields.mk.injEq] at h
  obtain ⟨hop, heng, hrsv, hsel, harg⟩ := h
  have hbit := bitField_eng_of_engineOf heng
  simp only [bitField] at hop hbit hrsv hsel harg
  apply BitVec.eq_of_toNat_eq
  omega

/-- A command's fixed bits lie above ARG. -/
theorem pattern_and_upper (i : Instr) : i.pattern &&& 0xffff0000 = i.pattern := by
  cases i
  case decryptB mode idx => cases mode <;> simp only [Instr.pattern] <;> decide
  all_goals
    simp only [Instr.pattern]
    decide

theorem encode_and_upper (h : i.wellFormed) : encode i &&& 0xffff0000 = i.pattern :=
  Laws.or_and_mask _ _ _ (pattern_and_upper i) (Laws.ofNat_and_upper _ h)

theorem bitField_encode_arg (h : i.wellFormed) : bitField (encode i) 15 0 = i.arg := by
  have hp : i.pattern.extractLsb' 0 16 = 0 := by
    rw [← pattern_and_upper i, BitVec.extractLsb'_and]
    exact BitVec.and_zero
  rw [bitField_eq_toNat_extractLsb', encode, BitVec.extractLsb'_or, hp]
  have hlt : i.arg < 2 ^ 16 := h
  simpa using hlt

/-- The word of a well-formed command has the command's fields. -/
theorem fieldsOf_encode (h : i.wellFormed) : fieldsOf (encode i) = i.fields := by
  rw [fieldsOf_of_and_upper (encode_and_upper h), bitField_encode_arg h, Instr.fields]

/-- A word with a command's fields is the command's word, and the operand fits ARG. -/
theorem encode_of_fields (h : fieldsOf w = i.fields) : i.wellFormed ∧ encode i = w := by
  have harg : bitField w 15 0 = i.arg := congrArg Fields.arg h
  have hwf : i.arg < 2 ^ 16 := harg ▸ Nat.mod_lt _ (by decide)
  exact ⟨hwf, fieldsOf_injective ((fieldsOf_encode hwf).trans h.symm)⟩

end Words

section Rows

open Laws.EncodeSelectsRow in
/-- The word of every well-formed command selects the row of its mnemonic. -/
theorem encode_selects_row (i : Instr) : Laws.EncodeSelectsRow.Statement i := by
  cases i
  exacts [addrkA _, addrkB _, subbA, subbB, shrowA, shrowB, mixcA, mixcB, encblkA, encblkB, ctrA _, ctrB _, ldStA,
    ldStB, ldIvA, ldIvB, ldRkA, ldRkB, ldPtA _, ldPtB _, ldCmloB, ldCmhiB, ldKonstB, stStA, stStB, stOutA _, stOutB _,
    decryptB _ _, setkeyEkA, setkeyEkB, setkeySkB, rdstatStatusA, rdstatStatusB, rdstatOutnA, rdstatOutnB, rdstatCmlonB,
    rdstatCmhinB, rdstatCapA, rdstatCapB, resetA, resetB]

/-- A word that decodes selects a row. -/
theorem selects_row_of_decode {w : Word} {n : Nat} {i : Instr} (h : decode w n = .ok i) :
    ∃ row ∈ opcodeRows, w &&& row.mask = row.pattern := by
  obtain ⟨hwf, hw⟩ := encode_of_fields (decode_eq_ok_iff.1 h).1
  obtain ⟨row, hrow, -, hsel⟩ := encode_selects_row i hwf
  exact ⟨row, hrow, hw ▸ hsel⟩

/-- Every word that selects the row has the fields of a command with the row's mnemonic. -/
def RowNames (row : OpcodeRow) : Prop :=
  ∀ w : Word, w &&& row.mask = row.pattern → ∃ i : Instr, fieldsOf w = i.fields ∧ i.mnemonic = row.mnemonic

namespace RowNames

/-- A row that fixes every bit matches its pattern only. -/
theorem of_fixed {name : String} {p : Word} (i : Instr) (hf : fieldsOf p = i.fields := by rfl)
    (hm : i.mnemonic = name := by rfl) :
    RowNames ⟨name, p, 0xffffffff⟩ := fun w hw => by
  obtain rfl : w = p := BitVec.and_allOnes.symm.trans hw
  exact ⟨i, hf, hm⟩

/-- A row that leaves ARG free names its command with the word's ARG as operand. -/
theorem of_operand {name : String} {p : Word} (c : Nat → Instr) (hp : ∀ a, (c a).pattern = p := by exact fun _ => rfl)
    (ha : ∀ a, (c a).arg = a := by exact fun _ => rfl) (hm : ∀ a, (c a).mnemonic = name := by exact fun _ => rfl) :
    RowNames ⟨name, p, 0xffff0000⟩ := fun w hw =>
  ⟨c (bitField w 15 0), by rw [fieldsOf_of_and_upper hw, Instr.fields, hp, ha], hm _⟩

/-- The row of DECRYPT.B leaves the mode free as well, the lowest bit of SEL: each of its values gives the words of one
mode. -/
theorem decryptB : RowNames ⟨"DECRYPT.B", 0x98000000, 0xfffe0000⟩ := fun w hw => by
  have hmask : (0xffff0000 : Word) = 0xfffe0000 ||| BitVec.twoPow 32 16 := by decide
  have hupper : w &&& 0xffff0000 = 0x98010000 ∨ w &&& 0xffff0000 = 0x98000000 := by
    rw [hmask, BitVec.and_or_distrib_left, show w &&& 0xfffe0000 = 0x98000000 from hw, BitVec.and_twoPow]
    cases w.getLsbD 16 <;> decide
  obtain hw | hw := hupper
  · exact of_operand (.decryptB .trivial) (fun _ => rfl) (fun _ => rfl) (fun _ => rfl) w hw
  · exact of_operand (.decryptB .secretKey) (fun _ => rfl) (fun _ => rfl) (fun _ => rfl) w hw

theorem of_mem_transformRows : ∀ row ∈ transformRows, RowNames row := by
  simp only [transformRows, List.forall_mem_cons]
  exact ⟨of_operand .addrkA, of_operand .addrkB, of_fixed .subbA, of_fixed .subbB, of_fixed .shrowA, of_fixed .shrowB,
    of_fixed .mixcA, of_fixed .mixcB, of_fixed .encblkA, of_fixed .encblkB, of_operand .ctrA, of_operand .ctrB,
    List.forall_mem_nil _⟩

theorem of_mem_loadRows : ∀ row ∈ loadRows, RowNames row := by
  simp only [loadRows, List.forall_mem_cons]
  exact ⟨of_fixed .ldStA, of_fixed .ldStB, of_fixed .ldIvA, of_fixed .ldIvB, of_fixed .ldRkA, of_fixed .ldRkB,
    of_operand .ldPtA, of_operand .ldPtB, of_fixed .ldCmloB, of_fixed .ldCmhiB, of_fixed .ldKonstB,
    List.forall_mem_nil _⟩

theorem of_mem_controlRows : ∀ row ∈ controlRows, RowNames row := by
  simp only [controlRows, List.forall_mem_cons]
  exact ⟨of_fixed .stStA, of_fixed .stStB, of_operand .stOutA, of_operand .stOutB, decryptB, of_fixed .setkeyEkA,
    of_fixed .setkeyEkB, of_fixed .setkeySkB, of_fixed .rdstatStatusA, of_fixed .rdstatStatusB, of_fixed .rdstatOutnA,
    of_fixed .rdstatOutnB, of_fixed .rdstatCmlonB, of_fixed .rdstatCmhinB, of_fixed .rdstatCapA, of_fixed .rdstatCapB,
    of_fixed .resetA, of_fixed .resetB, List.forall_mem_nil _⟩

theorem of_mem_opcodeRows {row : OpcodeRow} (h : row ∈ opcodeRows) : RowNames row := by
  simp only [opcodeRows, List.mem_append] at h
  obtain (h | h) | h := h
  · exact of_mem_transformRows row h
  · exact of_mem_loadRows row h
  · exact of_mem_controlRows row h

end RowNames

/-- Two rows that some word selects agree wherever both masks look. -/
theorem patterns_agree {w : Word} {r q : OpcodeRow} (hr : w &&& r.mask = r.pattern) (hq : w &&& q.mask = q.pattern) :
    r.pattern &&& q.mask = q.pattern &&& r.mask := by
  rw [← hr, ← hq, BitVec.and_assoc, BitVec.and_assoc, BitVec.and_comm r.mask]

/-- Any two rows disagree on a bit that both masks fix. -/
theorem patterns_differ : opcodeRows.Pairwise fun r q => r.pattern &&& q.mask ≠ q.pattern &&& r.mask := by decide

/-- Every row's mask covers OP. -/
theorem op_of_selects {w : Word} {row : OpcodeRow} (hrow : row ∈ opcodeRows) (h : w &&& row.mask = row.pattern) :
    bitField w 31 28 = bitField row.pattern 31 28 := by
  have hmask : ∀ r ∈ opcodeRows, r.mask.extractLsb' 28 4 = BitVec.allOnes 4 := by decide
  rw [← h, bitField_and w _ 31 28 (hmask row hrow)]

/-- A word that selects a row other than a load is illegal with a payload. -/
theorem not_decode_of_payload {w : Word} {n : Nat} {row : OpcodeRow} (hrow : row ∈ opcodeRows)
    (h : w &&& row.mask = row.pattern) (hop : bitField row.pattern 31 28 ≠ 7) (hn : n ≠ 0) (j : Instr) :
    decode w n ≠ .ok j := fun hj => by
  obtain ⟨hf, hpay⟩ := decode_eq_ok_iff.1 hj
  have hload : j.fields.op = 7 := (isLoad_iff_op j).1 (hpay.resolve_right hn)
  rw [← hf] at hload
  exact hop ((op_of_selects hrow h).symm.trans hload)

end Rows

/-- Settles O3: a selected row names the command whose fields the word has, a decoded word selects the row of its
command, and of two rows the patterns differ where both masks look. -/
theorem wordSelectsAtMostOneRow : Obligations.WordSelectsAtMostOneRow := by
  refine ⟨fun row hrow w n hsel hn => ?_, fun w n hnone => decode_error_of_not_ok fun i hi => ?_,
    fun row hrow w n hsel hop hn => decode_error_of_not_ok (not_decode_of_payload hrow hsel hop hn), rfl,
    patterns_differ.imp fun hne w hr hq => hne (patterns_agree hr hq)⟩
  · obtain ⟨i, hf, hm⟩ := RowNames.of_mem_opcodeRows hrow w hsel
    have hload : i.isLoad = true ↔ bitField row.pattern 31 28 = 7 := by
      rw [isLoad_iff_op, ← hf, ← op_of_selects hrow hsel, fieldsOf]
    exact ⟨i, decode_eq_ok_iff.2 ⟨hf, hn.imp_left hload.2⟩, hm, (congrArg Fields.arg hf).symm⟩
  · obtain ⟨row, hrow, hsel⟩ := selects_row_of_decode hi
    exact hnone row hrow hsel

end Sys2Proof.Machine
end

section
/-! The in-place commands of engine A: what the shape they share does (R129, R307, R314), and the value laws of their
transforms (R126, R127, R130 to R134) against the cleartext functions. -/

namespace Sys2Proof.Machine

/-- The checks of R129 as one list: a clause with two or three disjuncts is that many checks with the same error. -/
theorem firstError_eq_inPlaceRefusal {α : Type} (s : State) (e : Engine α) (badRound needRk needKonst needEk : Bool) :
    firstError [(!s.tblok, .tableMalformed), (badRound, .roundRange), (!e.stv, .notLoaded),
      (needRk && !e.rkv, .notLoaded), (needKonst && !s.bx.kv, .notLoaded), (needEk && !e.ekv, .noEvalKey)] =
      inPlaceRefusal s e badRound needRk needKonst needEk := by
  simp only [firstError_cons, firstError_nil, inPlaceRefusal, Bool.and_eq_true, Bool.not_eq_true']
  grind

/-- A command of engine A that evaluates a new ST.A: the failing check's error, GateFail with STV.A = 0, or OK with the
new block and nothing else changed. `Law` is what is claimed of that block. -/
theorem exec_inPlaceA {i : Instr} {s : State} {checks : List (Bool × ErrCode)} {refusal : Option ErrCode}
    {f : Ticket → State → Block CtA} {Law : Block CtA → Prop}
    (hexec : exec i s = runEvaluating .A checks true (·.onA Engine.dropSt) (fun p s => s.onA (Engine.putSt (f p s))) s)
    (hchecks : firstError checks = refusal) (hlaw : Law (f [s.fresh] s)) :
    (∀ c, refusal = some c → exec i s = .next (s.erredA c)) ∧
    (refusal = none → s.primfail = true →
      exec i s = .next (State.erredA { s with a := { s.a with stv := false } } .gateFail)) ∧
    (refusal = none → s.primfail = false →
      ∃ (blk : Block CtA) (k : Nat),
        exec i s = .next (State.completed { s with a := { s.a with st := blk }, fresh := k } .empty) ∧ Law blk) := by
  subst hchecks
  refine ⟨fun c hc => ?_, fun hnone hp => ?_, fun hnone hp => ⟨f [s.fresh] s, s.fresh + 1, ?_, hlaw⟩⟩
  · rw [hexec, runEvaluating_error hc, State.raise_A]
  · rw [hexec, runEvaluating_gateFail hnone rfl hp, State.raise_A]
    rfl
  · rw [hexec, runEvaluating_ok hnone (.inr hp)]
    rfl

section Doubling
open Reference (double gfMul)
variable (v w : Byte)

/-- The doubling of R126 as a shift and a reduction by the field polynomial when the top bit is shifted out. -/
theorem double_eq_shiftLeft : double v = v <<< 1 ^^^ (if v.msb then 0x1B else 0) := by
  have hshift : BitVec.ofNat 8 (2 * v.toNat % 256) = v <<< 1 := by
    apply BitVec.eq_of_toNat_eq
    simp [Nat.shiftLeft_eq, Nat.mul_comm]
  rw [double, hshift, BitVec.msb_eq_decide]
  by_cases h : 128 ≤ v.toNat
  · rw [show v.toNat / 128 = 1 by omega]
    simp [h]
  · rw [show v.toNat / 128 = 0 by omega]
    simp [h]

/-- The lowest bit of a double is the top bit: the shift leaves it free and 0x1B is odd. -/
theorem getLsbD_zero_double : (double v).getLsbD 0 = v.msb := by
  rw [double_eq_shiftLeft]
  cases v.msb <;> simp

variable {v w} in
/-- The lowest bit of a double says whether it was reduced, so the shifted byte and its top bit can be recovered. -/
theorem double_injective (h : double v = double w) : v = w := by
  have hmsb : v.msb = w.msb := by rw [← getLsbD_zero_double, h, getLsbD_zero_double]
  have hshift : v <<< 1 = w <<< 1 := by
    rwa [double_eq_shiftLeft, double_eq_shiftLeft, hmsb, BitVec.xor_left_inj] at h
  apply BitVec.eq_of_toNat_eq
  have hnat := congrArg BitVec.toNat hshift
  rw [BitVec.msb_eq_decide, BitVec.msb_eq_decide, decide_eq_decide] at hmsb
  simp [Nat.shiftLeft_eq] at hnat hmsb
  omega

theorem gfMul_one : gfMul 1#8 v = v := by
  simp [gfMul, List.range_succ]

theorem gfMul_two : gfMul 2#8 v = double v := by
  simp [gfMul, List.range_succ]

theorem gfMul_three : gfMul 3#8 v = v ^^^ double v := by
  simp [gfMul, List.range_succ]

/-- `double_A` denotes the doubling of R126: its top bit is 0 or 1, so the product of R123 is the one the law fixes. -/
@[simp] theorem doubleA_val (p : Ticket) (x : CtA) : (doubleA p x).val = double x.val := by
  obtain htop | htop : x.val.toNat / 128 = 0 ∨ x.val.toNat / 128 = 1 := by omega
  all_goals simp [doubleA, arithShl1, arithTop, arithCmul, double, htop]

end Doubling

/-- Settles O52: the unit denotes the doubling of R126, which is the product with 2 and can be undone. -/
theorem doubleAIsFieldDoubling : Obligations.DoubleAIsFieldDoubling :=
  ⟨doubleA_val, fun p x => (doubleA_val p x).trans (gfMul_two _).symm,
    fun p q x y h => double_injective (by simpa using h)⟩

section Columns
open Reference (double mdsRow mixFactor)
variable (p : Ticket) (b : Vector CtA 4)

/-- The formula of R127 over denoted values. -/
theorem mixColumnA_val (k : Fin 4) :
    (mixColumnA p b)[k].val =
      double b[k].val ^^^ b[k + 3].val ^^^ b[k + 2].val ^^^ double b[k + 1].val ^^^ b[k + 1].val := by
  simp [mixColumnA, mixColumn]

/-- The formula of R127 is row `k` of the matrix times the column: in each row the factors 1, 2 and 3 give the five
terms. -/
theorem mdsRow_eq_formula (col : Vector Byte 4) (k : Fin 4) :
    mdsRow col k = double col[k] ^^^ col[k + 3] ^^^ col[k + 2] ^^^ double col[k + 1] ^^^ col[k + 1] := by
  match k with
  | 0 | 1 | 2 | 3 =>
    simp [mdsRow, mixFactor, gfMul_one, gfMul_two, gfMul_three]
    ac_rfl

end Columns

/-- Settles O54: on equal bytes the two doublings cancel, and two of the three other terms. -/
theorem columnFunctionIsTheMatrixProduct : Obligations.ColumnFunctionIsTheMatrixProduct := by
  intro p b
  refine ⟨mixColumnA_val p b, fun k => ?_, fun v hv k => ?_⟩
  · rw [mixColumnA_val, mdsRow_eq_formula]
    simp
  · rw [mixColumnA_val]
    simp only [hv]
    rw [BitVec.xor_assoc (Reference.double v) v v, BitVec.xor_self, BitVec.xor_zero, BitVec.xor_self, BitVec.zero_xor]

/-- MixColumns on engine A denotes MixColumns of the denoted bytes (R133). -/
theorem denoteA_mixColumnsA (p : Ticket) (b : Block CtA) :
    denoteA (mixColumnsA p b) = Reference.mixColumns Reference.double (denoteA b) := by
  apply Vector.ext
  intro j hj
  have hval := mixColumnA_val ((j / 4) :: p) (column b ⟨j / 4, by omega⟩) ⟨j % 4, by omega⟩
  simpa [mixColumnsA, Reference.mixColumns, Reference.mixByte, Nat.add_comm] using hval

/-- Byte `i` after AddRoundKey on engine A (R130). -/
theorem addRoundKeyA_getElem_val (rk : Schedule CtA) (p : Ticket) (t : Fin 11) (b : Block CtA) (i : Nat) (hi : i < 16) :
    (addRoundKeyA rk p t b)[i].val = b[i].val ^^^ (rk[16 * t.val + i]'(by omega)).val := by
  simp [addRoundKeyA, roundKeyByte]

/-- Byte `i` after SubBytes on engine A (R131). -/
theorem subBytesA_getElem_val (table : Vector (Byte × Byte) 256) (p : Ticket) (b : Block CtA) (i : Nat) (hi : i < 16) :
    (subBytesA table p b)[i].val = tableLookup table b[i].val := by
  simp [subBytesA]

/-- Distinct inputs, as the premise of `tableLookup_of_mem`. -/
theorem nodup_inputs {table : Vector (Byte × Byte) 256} (h : distinctInputs table) :
    (table.toList.map Prod.fst).Nodup := by
  rw [List.Nodup, List.pairwise_iff_getElem]
  intro j k hj hk hjk
  simp only [List.length_map, Vector.length_toList] at hj hk
  simpa using h ⟨j, hj⟩ ⟨k, hk⟩ hjk

/-- A lookup of the input of pair `j` finds the output of that pair (R28, R124). -/
theorem tableLookup_input {table : Vector (Byte × Byte) 256} (h : distinctInputs table) (j : Fin 256) :
    tableLookup table table[j].1 = table[j].2 :=
  tableLookup_of_mem (by simp) (nodup_inputs h)

/-- Pair `j` of the fixed table is `j` and its S-box byte (R28, R302). -/
theorem fixedTable_getElem (j : Nat) (hj : j < 256) :
    fixedTable[j] = (BitVec.ofNat 8 j, sboxByte (BitVec.ofNat 8 j)) := by
  rw [fixedTable, Vector.getElem_ofFn]

theorem distinctInputs_fixedTable : distinctInputs fixedTable := fun j k hjk h => by
  simp [fixedTable_getElem, ← BitVec.toNat_inj] at h
  omega

/-- In the fixed table the pair of the byte `x` stands at `x` (R170). -/
theorem tableLookup_fixedTable (x : Byte) : tableLookup fixedTable x = sboxByte x := by
  simpa [fixedTable_getElem] using tableLookup_input distinctInputs_fixedTable x.toFin

/-- ShiftRows in rows and columns: row `r` moves left by `r` columns (R134). -/
theorem shiftRows_row_column {α : Type} (b : Block α) (r c : Nat) (hr : r < 4) (hc : c < 4) :
    (Reference.shiftRows b)[r + 4 * c] = b[r + 4 * ((c + r) % 4)] := by
  have hrow : (r + 4 * c) % 4 = r := by omega
  have hcol : (r + 4 * c) / 4 = c := by omega
  simp [← shiftRows_eq_reference, shiftRowsIndex, hrow, hcol]

/-- Settles O27: an index of the schedule is in range only for `t ≤ 10`, where the round is `t` itself. -/
theorem addRoundKeyAXorsTheRoundKey : Obligations.AddRoundKeyAXorsTheRoundKey := fun t s =>
  ⟨rfl, exec_inPlaceA (f := fun p s => addRoundKeyA s.a.rk p (Fin.ofNat 11 t) s.a.st) rfl
    (firstError_eq_inPlaceRefusal s s.a (decide (t > 10)) true false true) fun i hi hk => by
      have ht : t % 11 = t := by omega
      simp [addRoundKeyA_getElem_val, ht]⟩

/-- Settles O28: both laws are those of the lookup, applied to each byte. -/
theorem subBytesALooksUpTheTable : Obligations.SubBytesALooksUpTheTable := fun s =>
  ⟨rfl, exec_inPlaceA (f := fun p s => subBytesA s.sbox p s.a.st) rfl
    (firstError_eq_inPlaceRefusal s s.a false false false true)
    ⟨fun hd i j hj => (subBytesA_getElem_val _ _ _ i i.isLt).trans (hj ▸ tableLookup_input hd j),
      fun hfix i => (subBytesA_getElem_val _ _ _ i i.isLt).trans (hfix ▸ tableLookup_fixedTable _)⟩⟩

/-- Settles O29: the checks are those of R129 without a key, and the handles move by the printed table. -/
theorem shiftRowsAMovesTheCiphertexts : Obligations.ShiftRowsAMovesTheCiphertexts := by
  intro s
  have hexec : exec .shrowA s = runPlain .A [(!s.tblok, .tableMalformed), (!s.a.stv, .notLoaded)]
      (fun s => s.onA (Engine.putSt (shiftRows s.a.st))) .empty s := rfl
  have hchecks : firstError [(!s.tblok, .tableMalformed), (!s.a.stv, .notLoaded)] =
      inPlaceRefusal s s.a false false false false := firstError_eq_inPlaceRefusal s s.a false false false false
  refine ⟨rfl, fun c hc => ?_, fun hnone => ?_, shiftRows_row_column s.a.st⟩
  · rw [hexec, runPlain_error (hchecks.trans hc), State.raise_A]
  · rw [hexec, runPlain_ok (hchecks.trans hnone), ← shiftRows_eq_reference]
    rfl

/-- Settles O30: the column formula, column by column. -/
theorem mixColumnsAFollowsTheColumnFormula : Obligations.MixColumnsAFollowsTheColumnFormula := fun s =>
  ⟨rfl, exec_inPlaceA (f := fun p s => mixColumnsA p s.a.st) rfl
    (firstError_eq_inPlaceRefusal s s.a false false false true) (denoteA_mixColumnsA _ _)⟩

end Sys2Proof.Machine
end

section
/-! The S-box circuit of engine B (R171, R172): run once on truth tables it gives the truth tables of SBOX. -/

namespace Sys2Proof.Machine

/-- Equal bits, equal bytes: the form in which a bit law gives a byte law. -/
theorem BvByte.val_eq_of_bits {v : BvByte} {y : Byte} (h : ∀ (k : Nat) (hk : k < 8), v[k].val = y[k]) :
    BvByte.val v = y :=
  BitVec.eq_of_getElem_eq fun k hk => (BvByte.val_getElem v k hk).trans (h k hk)

section Circuit
variable {α β : Type}

/-- An element of the wires commutes with a map of them. -/
theorem wire_map (f : α → β) (d : α) (wires : List α) (k : Nat) :
    wire (f d) (wires.map f) k = f (wire d wires k) := by
  induction wires generalizing k with
  | nil => rfl
  | cons x wires ih =>
    cases k with
    | zero => rfl
    | succ k => exact ih k

/-- A map that commutes with the gates commutes with the circuit. -/
theorem runSboxCircuit_map (f : α → β) {g : GateOp → Nat → α → α → α} {h : GateOp → Nat → β → β → β}
    (hg : ∀ op n a b, f (g op n a b) = h op n (f a) (f b)) (d : α) (x : Vector α 8) :
    (runSboxCircuit g d x).map f = runSboxCircuit h (f d) (x.map f) := by
  apply Vector.ext
  intro k hk
  simp only [runSboxCircuit, Vector.getElem_map, Vector.getElem_ofFn]
  rw [← wire_map f, runGates_map f g h d hg]
  rfl

end Circuit

/-- A gate on the denoted bits. -/
def bitGate : GateOp → Nat → Bool → Bool → Bool
  | .xor, _, a, b => Bool.xor a b
  | .xnor, _, a, b => !Bool.xor a b
  | .and, _, a, b => a && b

theorem circuitGate_val (p : Ticket) (op : GateOp) (n : Nat) (a b : CtB) :
    (circuitGate p op n a b).val = bitGate op n a.val b.val := by
  cases op <;> rfl

/-- A gate on truth tables: entry `x` of a signal's table is the signal when the circuit's input is the byte `x`. -/
def tableGate : GateOp → Nat → BitVec 256 → BitVec 256 → BitVec 256
  | .xor, _, a, b => a ^^^ b
  | .xnor, _, a, b => ~~~(a ^^^ b)
  | .and, _, a, b => a &&& b

/-- The truth tables of the eight bits of a function on bytes. -/
def truthTables (f : Byte → Byte) : Vector (BitVec 256) 8 :=
  Vector.ofFn fun k => BitVec.ofFnLE fun x => (f (BitVec.ofFin x))[k]

/-- Entry `x` of every table. -/
def tableEntry (x : Byte) (t : BitVec 256) : Bool := t[x.toNat]

theorem tableEntry_tableGate (x : Byte) (op : GateOp) (n : Nat) (a b : BitVec 256) :
    tableEntry x (tableGate op n a b) = bitGate op n (tableEntry x a) (tableEntry x b) := by
  cases op <;> simp [tableEntry, tableGate, bitGate]

theorem truthTables_tableEntry (f : Byte → Byte) (x : Byte) (k : Nat) (hk : k < 8) :
    ((truthTables f).map (tableEntry x))[k] = (f x)[k] := by
  simp [truthTables, tableEntry]

/-- The circuit on the truth tables of its inputs: all 256 bytes at once (R172). -/
theorem runSboxCircuit_truthTables :
    runSboxCircuit tableGate 0 (truthTables id) = truthTables sboxByte := by
  decide +kernel

/-- The circuit denotes the S-box of the denoted byte (R172). -/
theorem sboxB_val (p : Ticket) (x : BvByte) : BvByte.val (sboxB p x) = sboxByte (BvByte.val x) := by
  have hbits : x.map CtB.val = (truthTables id).map (tableEntry (BvByte.val x)) :=
    Vector.ext fun k hk => by
      rw [truthTables_tableEntry, Vector.getElem_map, id, BvByte.val_getElem]
  have hcircuit : (sboxB p x).map CtB.val = (truthTables sboxByte).map (tableEntry (BvByte.val x)) :=
    calc (sboxB p x).map CtB.val
      _ = runSboxCircuit bitGate false (x.map CtB.val) := runSboxCircuit_map _ (circuitGate_val p) _ _
      _ = (runSboxCircuit tableGate 0 (truthTables id)).map (tableEntry (BvByte.val x)) := by
        rw [hbits, runSboxCircuit_map _ (tableEntry_tableGate _), tableEntry, BitVec.ofNat_eq_ofNat,
          BitVec.getElem_zero]
      _ = (truthTables sboxByte).map (tableEntry (BvByte.val x)) := by rw [runSboxCircuit_truthTables]
  refine BvByte.val_eq_of_bits fun k hk => ?_
  rw [← truthTables_tableEntry, ← hcircuit, Vector.getElem_map]

/-- Settles O51: the values by truth tables, the four counts by evaluating the list of R171. -/
theorem sboxCircuitEqualsTheTable : Obligations.SboxCircuitEqualsTheTable :=
  ⟨sboxB_val, rfl, by decide, by decide +kernel, by decide +kernel⟩

end Sys2Proof.Machine
end

section
/-! The doubling unit of engine B (R167, R168) against its bit law, and MixColumns built from it (R169, R178). -/

namespace Sys2Proof.Machine

open Reference (double doubleBits)

section DoublingB
variable (kf kt : CtB) (p : Ticket) (x : BvByte)

/-- Bit `k` of `C1B` (R167). -/
theorem const1B_getElem (k : Fin 8) : (const1B kf kt)[k] = if k.val ∈ [0, 1, 3, 4] then kt else kf := by
  fin_cases k <;> rfl

/-- Bit `k` of the shifted byte, `s_k` of R168: `inj` goes in at the bottom and the others move up by one (R164). -/
theorem boolShl1_getElem_val (inj : CtB) (k : Fin 8) :
    (boolShl1 x inj)[k].val = if k.val = 0 then inj.val else (BvByte.val x).getLsbD (k.val - 1) := by
  have hlt : k.val - 1 < 8 := by omega
  rw [BitVec.getLsbD_eq_getElem hlt, BvByte.val_getElem]
  simp [boolShl1, apply_ite CtB.val]

/-- The bit law of R168: the shifted bit, XORed with the bit of `C1B` or `C00` that the top bit selects. -/
theorem doubleB_getElem_val (k : Fin 8) :
    (doubleB kf kt p x)[k].val =
      Bool.xor (if k.val = 0 then kf.val else (BvByte.val x).getLsbD (k.val - 1))
        (if x[7].val then (if k.val ∈ [0, 1, 3, 4] then kt.val else kf.val) else kf.val) := by
  have hdef : (doubleB kf kt p x)[k] =
      boolXor (1 :: k.val :: p) (boolShl1 x kf)[k]
        (boolMux (0 :: k.val :: p) (boolTop x) (const1B kf kt)[k] (constFalse kf)[k]) := by
    simp [doubleB]
  rw [hdef, boolXor_val, boolMux_val, boolShl1_getElem_val, const1B_getElem, apply_ite CtB.val]
  simp [boolTop, constFalse]

/-- `double_B` denotes the byte of the bit law (R168). -/
@[simp] theorem doubleB_val : BvByte.val (doubleB kf kt p x) = doubleBits kf.val kt.val (BvByte.val x) :=
  BvByte.val_eq_of_bits fun k hk => by
    simpa [doubleBits] using doubleB_getElem_val kf kt p x ⟨k, hk⟩

end DoublingB

/-- The bits of 0x1B are the places of KT in `C1B` (R167). -/
theorem getElem_0x1B : ∀ (k : Nat) (hk : k < 8), (0x1B#8)[k] = decide (k = 0 ∨ k = 1 ∨ k = 3 ∨ k = 4) := by
  decide

/-- With the constants 0 and 1 the bit law is the doubling of R126. -/
theorem doubleBits_false_true : doubleBits false true = double := by
  funext v
  rw [double_eq_shiftLeft, BitVec.msb_eq_getLsbD_last]
  refine BitVec.eq_of_getElem_eq fun k hk => ?_
  have hbelow : v.getLsbD (k - 1) = v[k - 1] := BitVec.getLsbD_eq_getElem (by omega)
  cases htop : v[7]
  · simp [doubleBits, htop, hbelow]
  · simp [doubleBits, htop, hbelow, getElem_0x1B k hk]

/-- Settles O53: the bit law as it stands, and the byte law by way of the doubling of R126. -/
theorem doubleBObeysItsBitLaw : Obligations.DoubleBObeysItsBitLaw := fun kf kt p x =>
  ⟨doubleB_getElem_val kf kt p x, fun hf ht => by
    rw [doubleB_val, hf, ht, doubleBits_false_true]
    rfl⟩

/-- The formula of R127 over denoted bytes, with the doubling of R168 (R169). -/
theorem mixColumnB_val (kf kt : CtB) (p : Ticket) (b : Vector BvByte 4) (k : Fin 4) :
    BvByte.val (mixColumnB kf kt p b)[k] =
      doubleBits kf.val kt.val (BvByte.val b[k]) ^^^ BvByte.val b[k + 3] ^^^ BvByte.val b[k + 2] ^^^
        doubleBits kf.val kt.val (BvByte.val b[k + 1]) ^^^ BvByte.val b[k + 1] := by
  simp [mixColumnB, mixColumn]

/-- MixColumns on engine B denotes MixColumns of the denoted bytes, with the doubling of R168 (R178). -/
theorem denoteB_mixColumnsB (kf kt : CtB) (p : Ticket) (b : Block BvByte) :
    denoteB (mixColumnsB kf kt p b) = Reference.mixColumns (doubleBits kf.val kt.val) (denoteB b) := by
  apply Vector.ext
  intro j hj
  have hval := mixColumnB_val kf kt ((j / 4) :: p) (column b ⟨j / 4, by omega⟩) ⟨j % 4, by omega⟩
  simpa [mixColumnsB, Reference.mixColumns, Reference.mixByte, Nat.add_comm] using hval

end Sys2Proof.Machine
end

section
/-! The in-place commands of engine B: what the shape they share does (R129, R307, R314), and each command by the value
law of its transform (R175 to R178). -/

namespace Sys2Proof.Machine

/-- A command of engine B that evaluates a new ST.B: the failing check's error, GateFail with STV.B = 0, or OK with the
new block and nothing else changed. `Law` is what is claimed of that block. -/
theorem exec_inPlaceB {i : Instr} {s : State} {checks : List (Bool × ErrCode)} {refusal : Option ErrCode}
    {f : Ticket → State → Block BvByte} {Law : Block BvByte → Prop}
    (hexec : exec i s = runEvaluating .B checks true (·.onB Engine.dropSt) (fun p s => s.onB (Engine.putSt (f p s))) s)
    (hchecks : firstError checks = refusal) (hlaw : Law (f [s.fresh] s)) :
    (∀ c, refusal = some c → exec i s = .next (s.erredB c)) ∧
    (refusal = none → s.primfail = true →
      exec i s = .next (State.erredB { s with b := { s.b with stv := false } } .gateFail)) ∧
    (refusal = none → s.primfail = false →
      ∃ (blk : Block BvByte) (k : Nat),
        exec i s = .next (State.completed { s with b := { s.b with st := blk }, fresh := k } .empty) ∧ Law blk) := by
  subst hchecks
  refine ⟨fun c hc => ?_, fun hnone hp => ?_, fun hnone hp => ⟨f [s.fresh] s, s.fresh + 1, ?_, hlaw⟩⟩
  · rw [hexec, runEvaluating_error hc, State.raise_B]
  · rw [hexec, runEvaluating_gateFail hnone rfl hp, State.raise_B]
    rfl
  · rw [hexec, runEvaluating_ok hnone (.inr hp)]
    rfl

/-- Byte `i` after AddRoundKey on engine B: eight gates, bit with bit (R166, R175). -/
theorem addRoundKeyB_getElem (rk : Schedule BvByte) (p : Ticket) (t : Fin 11) (b : Block BvByte) (i : Nat)
    (hi : i < 16) : (addRoundKeyB rk p t b)[i] = xor8 (i :: p) b[i] (rk[16 * t.val + i]'(by omega)) := by
  simp [addRoundKeyB, roundKeyByte]

theorem xor8_getElem_val (p : Ticket) (x y : BvByte) (q : Fin 8) :
    (xor8 p x y)[q].val = Bool.xor x[q].val y[q].val := by
  simp [xor8]

/-- Byte `i` after SubBytes on engine B (R176). -/
theorem subBytesB_getElem_val (p : Ticket) (b : Block BvByte) (i : Nat) (hi : i < 16) :
    BvByte.val (subBytesB p b)[i] = sboxByte (BvByte.val b[i]) := by
  simp [subBytesB, sboxB_val]

/-- Settles O33: an index of the schedule is in range only for `t ≤ 10`, where the round is `t` itself. -/
theorem addRoundKeyBXorsTheRoundKey : Obligations.AddRoundKeyBXorsTheRoundKey := fun t s =>
  ⟨rfl, exec_inPlaceB (f := fun p s => addRoundKeyB s.b.rk p (Fin.ofNat 11 t) s.b.st) rfl
    (firstError_eq_inPlaceRefusal s s.b (decide (t > 10)) true false true) fun i hi hk => by
      have ht : t % 11 = t := by omega
      simp only [addRoundKeyB_getElem, Fin.val_ofNat, ht]
      exact ⟨xor8_getElem_val _ _ _, xor8_val _ _ _⟩⟩

/-- Settles O34: the circuit on each byte. -/
theorem subBytesBSubstitutesEveryByte : Obligations.SubBytesBSubstitutesEveryByte := fun s =>
  ⟨rfl, exec_inPlaceB (f := fun p s => subBytesB p s.b.st) rfl
    (firstError_eq_inPlaceRefusal s s.b false false false true) fun i => subBytesB_getElem_val _ _ i i.isLt⟩

/-- Settles O35: the checks are those of R129 without a key, and the handles move by the printed table. -/
theorem shiftRowsBMovesTheCiphertexts : Obligations.ShiftRowsBMovesTheCiphertexts := by
  intro s
  have hexec : exec .shrowB s = runPlain .B [(!s.tblok, .tableMalformed), (!s.b.stv, .notLoaded)]
      (fun s => s.onB (Engine.putSt (shiftRows s.b.st))) .empty s := rfl
  have hchecks : firstError [(!s.tblok, .tableMalformed), (!s.b.stv, .notLoaded)] =
      inPlaceRefusal s s.b false false false false := firstError_eq_inPlaceRefusal s s.b false false false false
  refine ⟨rfl, fun c hc => ?_, fun hnone => ?_, shiftRows_row_column s.b.st⟩
  · rw [hexec, runPlain_error (hchecks.trans hc), State.raise_B]
  · rw [hexec, runPlain_ok (hchecks.trans hnone), ← shiftRows_eq_reference]
    rfl

/-- Settles O36: the column formula, whose doubling is that of R126 when the constants denote 0 and 1. -/
theorem mixColumnsBFollowsTheColumnFormula : Obligations.MixColumnsBFollowsTheColumnFormula := fun s =>
  ⟨rfl, exec_inPlaceB (f := fun p s => mixColumnsB s.bx.kf s.bx.kt p s.b.st) rfl
    (firstError_eq_inPlaceRefusal s s.b false false true true)
    ⟨denoteB_mixColumnsB _ _ _ _, fun ⟨hf, ht⟩ => by
      rw [denoteB_mixColumnsB, hf, ht, doubleBits_false_true]⟩⟩

end Sys2Proof.Machine
end

section
/-! DECRYPT.B (R182): its checks, and the byte it returns as a sum over the bits. -/

namespace Sys2Proof.Machine

/-- A number given by its bits, least significant first, is the sum of their weights. -/
theorem ofBits_eq_sum {n : Nat} (f : Fin n → Bool) :
    Nat.ofBits f = ((List.finRange n).map fun k => (f k).toNat * 2 ^ k.val).sum := by
  induction n with
  | zero => rfl
  | succ n ih =>
    rw [Nat.ofBits_succ, ih, List.finRange_succ, List.map_cons, List.sum_cons, List.map_map, ← List.sum_map_mul_left,
      Nat.add_comm]
    simp [Function.comp_def, Nat.pow_succ, Nat.mul_comm, Nat.mul_left_comm]

/-- The denoted byte is the sum of R5 over its bits. -/
theorem BvByte.toNat_val (v : BvByte) :
    (BvByte.val v).toNat = ((List.finRange 8).map fun k => v[k].val.toNat * 2 ^ k.val).sum := by
  rw [BvByte.val, BitVec.toNat_ofFnLE, ofBits_eq_sum]

/-- The test of R182 fails just when some bit is not trivial. -/
theorem allTrivial_eq_false (v : BvByte) : allTrivial v = false ↔ ∃ k : Fin 8, v[k].triv = false := by
  rw [allTrivial, List.all_eq_false]
  simp only [Vector.mem_toList_iff, Vector.mem_iff_getElem, Bool.not_eq_true]
  constructor
  · rintro ⟨_, ⟨k, hk, rfl⟩, htriv⟩
    exact ⟨⟨k, hk⟩, htriv⟩
  · rintro ⟨k, htriv⟩
    exact ⟨_, ⟨k, k.isLt, rfl⟩, htriv⟩

/-- The checks of R182 as one list. -/
theorem firstError_eq_decryptRefusal (s : State) (mode : DecryptMode) (idx : Nat) :
    firstError [(!s.tblok, .tableMalformed), (decide (15 < idx), .indexRange), (!s.b.stv, .notLoaded),
      (decide (mode = .secretKey) && !s.bx.skv, .noSecretKey),
      (decide (mode = .trivial) && !allTrivial s.b.st[Fin.ofNat 16 idx], .decryptMismatch)] =
      decryptRefusal s mode idx := by
  simp only [firstError_cons, firstError_nil, decryptRefusal, Bool.and_eq_true, Bool.not_eq_true', decide_eq_true_eq,
    allTrivial_eq_false]

/-- Settles O39: the checks are those of R182, and past them the slot read is `idx` itself. -/
theorem decryptBReturnsTheDenotedByte : Obligations.DecryptBReturnsTheDenotedByte := by
  intro mode idx s
  have hexec : exec (.decryptB mode idx) s = runPlain .B _ id (.byte (BvByte.val s.b.st[Fin.ofNat 16 idx])) s := rfl
  have hchecks := firstError_eq_decryptRefusal s mode idx
  refine ⟨by cases mode <;> simp [encode, Instr.pattern, Instr.arg], fun c hc => ?_, fun hnone =>
    ⟨BvByte.val s.b.st[Fin.ofNat 16 idx], ?_, fun hi => ?_⟩⟩
  · rw [hexec, runPlain_error (hchecks.trans hc), State.raise_B]
  · exact hexec.trans (runPlain_ok (hchecks.trans hnone))
  · have hslot : s.b.st[Fin.ofNat 16 idx] = s.b.st[idx] := by simp [Nat.mod_eq_of_lt hi]
    rw [hslot, BvByte.toNat_val]

end Sys2Proof.Machine
end

section
/-! The block driver (R200): `encryptBlock` over the transforms of an engine denotes `enc` over bytes, and with it the
commands ENCBLK.A and ENCBLK.B (R201, R202) and their agreement with AES-128 (R205). -/

namespace Sys2Proof.Machine

open Reference (double doubleBits)

/-- The transforms of an engine, and the ShiftRows the engines share, denote the cleartext transforms under the schedule
`rk` with the doubling `dbl`: what R200 needs to know of an engine. -/
structure Transforms.Denotes {α : Type} (f : Transforms α) (denote : Block α → Vector Byte 16) (dbl : Byte → Byte)
    (rk : Vector Byte 176) : Prop where
  denote_addRoundKey : ∀ p t b, denote (f.addRoundKey p t b) = Reference.addRoundKey rk t (denote b)
  denote_subBytes : ∀ p b, denote (f.subBytes p b) = Reference.subBytes (denote b)
  denote_shiftRows : ∀ b, denote (shiftRows b) = Reference.shiftRows (denote b)
  denote_mixColumns : ∀ p b, denote (f.mixColumns p b) = Reference.mixColumns dbl (denote b)

section Driver
variable {α : Type} {f : Transforms α} {denote : Block α → Vector Byte 16} {dbl : Byte → Byte} {rk : Vector Byte 176}

/-- One of the rounds 1 to 9 (R200). -/
theorem Transforms.Denotes.denote_middleRound (h : f.Denotes denote dbl rk) (p : Ticket) (b : Block α) (t : Fin 11) :
    denote (middleRound f p b t) =
      Reference.addRoundKey rk t
        (Reference.mixColumns dbl (Reference.shiftRows (Reference.subBytes (denote b)))) := by
  simp only [middleRound, h.denote_addRoundKey, h.denote_mixColumns, h.denote_shiftRows, h.denote_subBytes]

/-- AddRoundKey 0 and the rounds 1 to `n` (R200): each round appended to the list is one more step of `rounds`. -/
theorem Transforms.Denotes.denote_middleRounds (h : f.Denotes denote dbl rk) (p : Ticket) (b : Block α) (n : Nat) :
    denote (((List.range' 1 n).map (Fin.ofNat 11)).foldl (middleRound f p) (f.addRoundKey (0 :: p) 0 b)) =
      Reference.rounds dbl rk (denote b) n := by
  induction n with
  | zero => exact h.denote_addRoundKey _ _ _
  | succ n ih =>
    rw [List.range'_1_concat, List.map_append, List.foldl_append, List.map_singleton, List.foldl_cons, List.foldl_nil,
      h.denote_middleRound, ih, Nat.add_comm 1 n]
    rfl

/-- The whole driver (R200): its nine middle rounds, then the last round without MixColumns. -/
theorem Transforms.Denotes.denote_encryptBlock (h : f.Denotes denote dbl rk) (p : Ticket) (b : Block α) :
    denote (encryptBlock f p b) = Reference.enc dbl (denote b) rk := by
  have hrounds : ([1, 2, 3, 4, 5, 6, 7, 8, 9] : List (Fin 11)) = (List.range' 1 9).map (Fin.ofNat 11) := rfl
  rw [encryptBlock, hrounds, h.denote_addRoundKey, h.denote_shiftRows, h.denote_subBytes, h.denote_middleRounds,
    Reference.enc]

end Driver

/-- SubBytes on engine A with the fixed table denotes SubBytes of the denoted bytes (R131, R170). -/
theorem denoteA_subBytesA_fixedTable (p : Ticket) (b : Block CtA) :
    denoteA (subBytesA fixedTable p b) = Reference.subBytes (denoteA b) := by
  apply Vector.ext
  intro i hi
  rw [denoteA_getElem, subBytesA_getElem_val, tableLookup_fixedTable]
  simp [Reference.subBytes]

/-- SubBytes on engine B denotes SubBytes of the denoted bytes (R176). -/
theorem denoteB_subBytesB (p : Ticket) (b : Block BvByte) :
    denoteB (subBytesB p b) = Reference.subBytes (denoteB b) := by
  apply Vector.ext
  intro i hi
  rw [denoteB_getElem, subBytesB_getElem_val]
  simp [Reference.subBytes]

section Engines
variable {s : State}

/-- Engine A with the fixed table (R201). -/
theorem State.transformsA_denotes (h : s.fixedSbox) : s.transformsA.Denotes denoteA double (denoteA s.a.rk) where
  denote_addRoundKey := denoteA_addRoundKeyA s.a.rk
  denote_subBytes := by
    rw [State.transformsA, h]
    exact denoteA_subBytesA_fixedTable
  denote_shiftRows := denoteA_shiftRows
  denote_mixColumns := denoteA_mixColumnsA

variable (s) in
/-- Engine B with the doubling of R168 for the constants it holds (R202). -/
theorem State.transformsB_denotes :
    s.transformsB.Denotes denoteB (doubleBits s.bx.kf.val s.bx.kt.val) (denoteB s.b.rk) where
  denote_addRoundKey := denoteB_addRoundKeyB s.b.rk
  denote_subBytes := denoteB_subBytesB
  denote_shiftRows := denoteB_shiftRows
  denote_mixColumns := denoteB_mixColumnsB s.bx.kf s.bx.kt

/-- The host duty on the constants makes the doubling of engine B the field doubling (R168, R346). -/
theorem State.konstDuty.doubleBits_eq (h : s.konstDuty) : doubleBits s.bx.kf.val s.bx.kt.val = double := by
  obtain ⟨hkf, hkt⟩ := h
  rw [hkf, hkt, doubleBits_false_true]

/-- Engine B under the host duty on its constants (R202). -/
theorem State.transformsB_denotes_of_konstDuty (h : s.konstDuty) :
    s.transformsB.Denotes denoteB double (denoteB s.b.rk) :=
  h.doubleBits_eq ▸ s.transformsB_denotes

end Engines

/-- Settles O31: the block of the driver, whose transforms denote those of R201 when SBOX is the fixed table. -/
theorem encryptBlockAEncrypts : Obligations.EncryptBlockAEncrypts := fun s =>
  ⟨rfl, exec_inPlaceA (f := fun p s => encryptBlock s.transformsA p s.a.st) rfl
    (firstError_eq_inPlaceRefusal s s.a false true false true)
    fun hfix => (State.transformsA_denotes hfix).denote_encryptBlock _ _⟩

/-- Settles O37: the block of the driver, whose transforms denote those of R202 for whatever constants are loaded. -/
theorem encryptBlockBEncrypts : Obligations.EncryptBlockBEncrypts := fun s =>
  ⟨rfl, exec_inPlaceB (f := fun p s => encryptBlock s.transformsB p s.b.st) rfl
    (firstError_eq_inPlaceRefusal s s.b false true true true)
    ⟨s.transformsB_denotes.denote_encryptBlock _ _,
      fun hduty => (State.transformsB_denotes_of_konstDuty hduty).denote_encryptBlock _ _⟩⟩

/-- A command with evaluations that responded OK had its effect: its two other outcomes respond an error. -/
theorem eq_completed_of_runEvaluating_ok {e : EngineId} {checks : List (Bool × ErrCode)} {work : Bool}
    {drop : State → State} {f : Ticket → State → State} {s t : State} {d : RespData}
    (hrun : runEvaluating e checks work drop f s = .next t) (hok : t.response = some (.ok d)) :
    t = ({ f [s.fresh] s with fresh := s.fresh + 1 } : State).completed .empty := by
  obtain ⟨c, -, heq⟩ | ⟨-, -, -, heq⟩ | ⟨-, -, heq⟩ := runEvaluating_cases e checks work drop f s
  · cases heq.symm.trans hrun
    cases hok
  · cases heq.symm.trans hrun
    cases hok
  · cases heq.symm.trans hrun
    rfl

/-- ST.A after an ENCBLK.A that responded OK. -/
theorem st_of_encblkA_ok {s t : State} (hexec : exec .encblkA s = .next t) (hok : t.response = some (.ok .empty)) :
    t.a.st = encryptBlock s.transformsA [s.fresh] s.a.st := by
  have hrun : execEncblkA s = .next t := hexec
  rw [eq_completed_of_runEvaluating_ok hrun hok]
  rfl

/-- ST.B after an ENCBLK.B that responded OK. -/
theorem st_of_encblkB_ok {s t : State} (hexec : exec .encblkB s = .next t) (hok : t.response = some (.ok .empty)) :
    t.b.st = encryptBlock s.transformsB [s.fresh] s.b.st := by
  have hrun : execEncblkB s = .next t := hexec
  rw [eq_completed_of_runEvaluating_ok hrun hok]
  rfl

/-- Settles O56: each engine leaves `enc` of its block under its schedule, and AES-128 is `enc` under the expanded key. -/
theorem bothEnginesComputeAes128 : Obligations.BothEnginesComputeAes128 := by
  intro key block s t
  refine ⟨fun hfix hrk hst hexec hok => ?_, fun hduty hrk hst hexec hok => ?_⟩
  · rw [st_of_encblkA_ok hexec hok, (State.transformsA_denotes hfix).denote_encryptBlock, hrk, hst, Reference.aes128]
  · rw [st_of_encblkB_ok hexec hok, (State.transformsB_denotes_of_konstDuty hduty).denote_encryptBlock, hrk, hst,
      Reference.aes128]

end Sys2Proof.Machine
end

section
/-! The CTR composer (R220 to R230): the checks of CTR.A and CTR.B, what each command leaves, the blocks it leaves as
bytes, and from these the wrap of the counter, the independence of the blocks and the inverse. -/

namespace Sys2Proof.Reference

variable (dbl : Byte → Byte) (miv : Vector Byte 16) (rk : Vector Byte 176) (pt : Vector Byte 16)

/-- Output XOR input is the keystream block. -/
theorem ctrBlock_getElem_xor (j : Fin 16) : (ctrBlock dbl miv rk pt)[j] ^^^ pt[j] = (enc dbl miv rk)[j] := by
  simp [ctrBlock]

/-- The same keystream block twice cancels (R230). -/
theorem ctrBlock_ctrBlock : ctrBlock dbl miv rk (ctrBlock dbl miv rk pt) = pt := by
  apply Vector.ext
  intro j hj
  simp [ctrBlock]

/-- The counter overwrites slots 14 and 15, so a modified IV depends on the other slots only (R220, R221). -/
theorem modifiedIv_congr {iv iv' : Vector Byte 16} (h : ∀ j : Fin 16, j.val < 14 → iv[j] = iv'[j]) (lo hi : Byte) :
    modifiedIv iv lo hi = modifiedIv iv' lo hi := by
  apply Vector.ext
  intro j hj
  obtain rfl | rfl | hlt : j = 14 ∨ j = 15 ∨ j < 14 := by omega
  · simp [modifiedIv]
  · simp [modifiedIv]
  · simp [modifiedIv, show iv[j] = iv'[j] from h ⟨j, hj⟩ hlt]

end Sys2Proof.Reference

namespace Sys2Proof.Machine

open Reference (double doubleBits ctrBlock modifiedIv)

/-- The counter bytes have the period 256 (R224). -/
@[simp] theorem counterLow_add_256 (i : Nat) : counterLow (i + 256) = counterLow i := by
  rw [counterLow, counterLow, show (i + 256) % 16 = i % 16 by omega]

@[simp] theorem counterHigh_add_256 (i : Nat) : counterHigh (i + 256) = counterHigh i := by
  rw [counterHigh, counterHigh, show (i + 256) / 16 % 16 = i / 16 % 16 by omega]

/-! The checks (R222, R223). -/

theorem Engine.ptLoaded_eq_false {α : Type} (e : Engine α) (n : Nat) :
    e.ptLoaded n = false ↔ ∃ i < n, e.ptValid i = false := by
  simp [Engine.ptLoaded]

/-- The checks of R222 as one list: a clause with three disjuncts is three checks with the same error. -/
theorem firstError_eq_ctrRefusalA (s : State) (n : Nat) :
    firstError [(!s.tblok, .tableMalformed), (decide (s.cap.blocks < n), .indexRange), (!s.a.ivv, .notLoaded),
      (!s.a.rkv, .notLoaded), (!s.a.ptLoaded n, .notLoaded), (!s.a.ekv, .noEvalKey)] = ctrRefusalA s n := by
  simp only [firstError_cons, firstError_nil, ctrRefusalA, ← Engine.ptLoaded_eq_false, Bool.not_eq_true',
    decide_eq_true_eq]
  grind

/-- The checks of R223 as one list. -/
theorem firstError_eq_ctrRefusalB (s : State) (n : Nat) :
    firstError [(!s.tblok, .tableMalformed), (decide (s.cap.blocks < n), .indexRange),
      (decide (s.bx.cmlon < n), .sizeList), (decide (s.bx.cmhin < n), .sizeList), (!s.b.ivv, .notLoaded),
      (!s.b.rkv, .notLoaded), (!s.bx.kv, .notLoaded), (!s.b.ptLoaded n, .notLoaded), (!s.b.ekv, .noEvalKey)] =
      ctrRefusalB s n := by
  simp only [firstError_cons, firstError_nil, ctrRefusalB, ← Engine.ptLoaded_eq_false, Bool.not_eq_true',
    decide_eq_true_eq]
  grind

/-! The states after CTR. -/

/-- The state after a CTR.A n that responded OK. -/
def State.ctrDoneA (s : State) (n : Nat) : State :=
  State.completed { s.onA (Engine.putOut blankBlockA n (ctrBlockA s [s.fresh])) with fresh := s.fresh + 1 } .empty

/-- The state after a CTR.B n that responded OK. -/
def State.ctrDoneB (s : State) (n : Nat) : State :=
  State.completed { s.onB (Engine.putOut blankBlockB n (ctrBlockB s [s.fresh])) with fresh := s.fresh + 1 } .empty

section Commands
variable {n : Nat} {s t : State}

theorem exec_ctrA : exec (.ctrA n) s = execCtrA n s := rfl

theorem exec_ctrB : exec (.ctrB n) s = execCtrB n s := rfl

theorem exec_ctrA_error {c : ErrCode} (h : ctrRefusalA s n = some c) : exec (.ctrA n) s = .next (s.erredA c) := by
  rw [exec_ctrA, execCtrA, runEvaluating_error ((firstError_eq_ctrRefusalA s n).trans h), State.raise_A]

theorem exec_ctrB_error {c : ErrCode} (h : ctrRefusalB s n = some c) : exec (.ctrB n) s = .next (s.erredB c) := by
  rw [exec_ctrB, execCtrB, runEvaluating_error ((firstError_eq_ctrRefusalB s n).trans h), State.raise_B]

theorem exec_ctrA_gateFail (h : ctrRefusalA s n = none) (hp : s.primfail = true) (hn : n ≠ 0) :
    exec (.ctrA n) s = .next ((s.onA Engine.dropOut).erredA .gateFail) := by
  rw [exec_ctrA, execCtrA,
    runEvaluating_gateFail ((firstError_eq_ctrRefusalA s n).trans h) (decide_eq_true hn) hp, State.raise_A]

theorem exec_ctrB_gateFail (h : ctrRefusalB s n = none) (hp : s.primfail = true) (hn : n ≠ 0) :
    exec (.ctrB n) s = .next ((s.onB Engine.dropOut).erredB .gateFail) := by
  rw [exec_ctrB, execCtrB,
    runEvaluating_gateFail ((firstError_eq_ctrRefusalB s n).trans h) (decide_eq_true hn) hp, State.raise_B]

/-- With no block to evaluate CTR ignores PRIMFAIL (R227). -/
theorem no_work_or_no_fail (hp : s.primfail = false ∨ n = 0) : decide (n ≠ 0) = false ∨ s.primfail = false :=
  hp.symm.imp_left fun hn => decide_eq_false (not_not_intro hn)

theorem exec_ctrA_ok (h : ctrRefusalA s n = none) (hp : s.primfail = false ∨ n = 0) :
    exec (.ctrA n) s = .next (s.ctrDoneA n) := by
  rw [exec_ctrA, execCtrA, runEvaluating_ok ((firstError_eq_ctrRefusalA s n).trans h) (no_work_or_no_fail hp),
    State.ctrDoneA]

theorem exec_ctrB_ok (h : ctrRefusalB s n = none) (hp : s.primfail = false ∨ n = 0) :
    exec (.ctrB n) s = .next (s.ctrDoneB n) := by
  rw [exec_ctrB, execCtrB, runEvaluating_ok ((firstError_eq_ctrRefusalB s n).trans h) (no_work_or_no_fail hp),
    State.ctrDoneB]

theorem eq_ctrDoneA_of_ok (hexec : exec (.ctrA n) s = .next t) (hok : t.response = some (.ok .empty)) :
    t = s.ctrDoneA n := by
  rw [exec_ctrA] at hexec
  exact eq_completed_of_runEvaluating_ok hexec hok

theorem eq_ctrDoneB_of_ok (hexec : exec (.ctrB n) s = .next t) (hok : t.response = some (.ok .empty)) :
    t = s.ctrDoneB n := by
  rw [exec_ctrB] at hexec
  exact eq_completed_of_runEvaluating_ok hexec hok

theorem State.ctrDoneA_outA (h : s.StorageInv) (i : Nat) :
    (s.ctrDoneA n).outA i = if i < n then ctrBlockA s [s.fresh] i else s.outA i :=
  Memory.read_fill h.engine_a.out_wf n _ i

theorem State.ctrDoneB_outB (h : s.StorageInv) (i : Nat) :
    (s.ctrDoneB n).outB i = if i < n then ctrBlockB s [s.fresh] i else s.outB i :=
  Memory.read_fill h.engine_b.out_wf n _ i

end Commands

/-! The blocks as bytes. -/

section Blocks
variable (s : State) (p : Ticket) (i : Nat)

theorem denoteA_modifiedIvA :
    denoteA (modifiedIvA s p i) = modifiedIv (denoteA s.a.iv) (counterLow i) (counterHigh i) := by
  apply Vector.ext
  intro j hj
  obtain rfl | rfl | hlt : j = 14 ∨ j = 15 ∨ j < 14 := by omega
  · simp [modifiedIvA, modifiedIv]
  · simp [modifiedIvA, modifiedIv]
  · simp [modifiedIvA, modifiedIv, hlt.ne, show j ≠ 15 by omega]

theorem denoteB_modifiedIvB :
    denoteB (modifiedIvB s i) = modifiedIv (denoteB s.b.iv) (BvByte.val (s.cmlo i)) (BvByte.val (s.cmhi i)) := by
  apply Vector.ext
  intro j hj
  obtain rfl | rfl | hlt : j = 14 ∨ j = 15 ∨ j < 14 := by omega
  · simp [modifiedIvB, modifiedIv]
  · simp [modifiedIvB, modifiedIv]
  · simp [modifiedIvB, modifiedIv, hlt.ne, show j ≠ 15 by omega]

/-- Block `i` of CTR.A as bytes (R222). -/
def State.ctrBytesA : Vector Byte 16 :=
  ctrBlock double (modifiedIv (denoteA s.a.iv) (counterLow i) (counterHigh i)) (denoteA s.a.rk) (denoteA (s.ptA i))

/-- Block `i` of CTR.B as bytes, for whatever counter material and constants are loaded (R223). -/
def State.ctrBytesB : Vector Byte 16 :=
  ctrBlock (doubleBits s.bx.kf.val s.bx.kt.val)
    (modifiedIv (denoteB s.b.iv) (BvByte.val (s.cmlo i)) (BvByte.val (s.cmhi i))) (denoteB s.b.rk) (denoteB (s.ptB i))

variable {s} in
theorem denoteA_ctrBlockA (hfix : s.fixedSbox) : denoteA (ctrBlockA s p i) = s.ctrBytesA i := by
  have hks : denoteA (keystreamA s p i) = _ := (State.transformsA_denotes hfix).denote_encryptBlock _ _
  rw [State.ctrBytesA, ctrBlock, ← denoteA_modifiedIvA s (i :: p), ← hks]
  apply Vector.ext
  intro j hj
  simp [ctrBlockA]

theorem denoteB_ctrBlockB : denoteB (ctrBlockB s p i) = s.ctrBytesB i := by
  have hks : denoteB (keystreamB s p i) = _ := s.transformsB_denotes.denote_encryptBlock _ _
  rw [State.ctrBytesB, ctrBlock, ← denoteB_modifiedIvB, ← hks]
  apply Vector.ext
  intro j hj
  simp [ctrBlockB]

end Blocks

section Outputs
variable {n i : Nat} {s t : State}

/-- The value law of CTR.A (R222). -/
theorem denoteA_outA_of_ctrA_ok (hinv : s.StorageInv) (hfix : s.fixedSbox) (hexec : exec (.ctrA n) s = .next t)
    (hok : t.response = some (.ok .empty)) (hi : i < n) : denoteA (t.outA i) = s.ctrBytesA i := by
  rw [eq_ctrDoneA_of_ok hexec hok, State.ctrDoneA_outA hinv, if_pos hi, denoteA_ctrBlockA _ _ hfix]

/-- The value law of CTR.B (R223). -/
theorem denoteB_outB_of_ctrB_ok (hinv : s.StorageInv) (hexec : exec (.ctrB n) s = .next t)
    (hok : t.response = some (.ok .empty)) (hi : i < n) : denoteB (t.outB i) = s.ctrBytesB i := by
  rw [eq_ctrDoneB_of_ok hexec hok, State.ctrDoneB_outB hinv, if_pos hi, denoteB_ctrBlockB]

/-- Under the duty on the counter material the modified IV of engine B is that of engine A (R221, R346). -/
theorem State.counterDuty.modifiedIv_eq (h : s.counterDuty n) (hi : i < n) (iv : Vector Byte 16) :
    modifiedIv iv (BvByte.val (s.cmlo i)) (BvByte.val (s.cmhi i)) = modifiedIv iv (counterLow i) (counterHigh i) := by
  obtain ⟨hlo, hhi⟩ := h i hi
  rw [hlo, hhi, counterLow, counterHigh]

end Outputs

/-- Settles O32: the three outcomes of the command, and the value law of its blocks. -/
theorem ctrAComposesTheBlocks : Obligations.CtrAComposesTheBlocks := by
  intro n s
  refine ⟨rfl, fun c => exec_ctrA_error, exec_ctrA_gateFail, fun hnone hp hinv =>
    ⟨s.ctrDoneA n, exec_ctrA_ok hnone hp, rfl, fun hfix i hi => ?_, fun i hi => ?_⟩⟩
  · exact denoteA_outA_of_ctrA_ok hinv hfix (exec_ctrA_ok hnone hp) rfl hi
  · rw [State.ctrDoneA_outA hinv, if_neg (Nat.not_lt.mpr hi)]

/-- Settles O38: as O32, and the host duties turn the counter entries and the doubling into those of engine A. -/
theorem ctrBComposesTheBlocks : Obligations.CtrBComposesTheBlocks := by
  intro n s
  refine ⟨rfl, fun c => exec_ctrB_error, exec_ctrB_gateFail, fun hnone hp hinv => ?_⟩
  have hout : ∀ i < n, denoteB ((s.ctrDoneB n).outB i) = s.ctrBytesB i := fun i hi =>
    denoteB_outB_of_ctrB_ok hinv (exec_ctrB_ok hnone hp) rfl hi
  refine ⟨s.ctrDoneB n, exec_ctrB_ok hnone hp, rfl, hout, fun hkonst hcounter i hi => ?_, fun i hi => ?_⟩
  · rw [hout i hi, State.ctrBytesB, hkonst.doubleBits_eq, hcounter.modifiedIv_eq hi, counterLow, counterHigh]
  · rw [State.ctrDoneB_outB hinv, if_neg (Nat.not_lt.mpr hi)]

/-- Settles O58: the XOR is the keystream block, and the counter bytes that it depends on repeat after 256 blocks. -/
theorem counterWrapRepeatsTheKeystream : Obligations.CounterWrapRepeatsTheKeystream := by
  refine ⟨fun n s _ hp => ⟨fun hnone => ⟨_, exec_ctrA_ok hnone (.inl hp), rfl⟩, fun hnone =>
    ⟨_, exec_ctrB_ok hnone (.inl hp), rfl⟩⟩, fun n s t hinv hfix hexec hok i hi j => ?_,
    fun n s t hinv hcounter hexec hok i hi j => ?_⟩
  · have hlt : i < n := by omega
    rw [denoteA_outA_of_ctrA_ok hinv hfix hexec hok hlt, denoteA_outA_of_ctrA_ok hinv hfix hexec hok hi]
    simp only [State.ctrBytesA, Reference.ctrBlock_getElem_xor, counterLow_add_256, counterHigh_add_256]
  · have hlt : i < n := by omega
    rw [denoteB_outB_of_ctrB_ok hinv hexec hok hlt, denoteB_outB_of_ctrB_ok hinv hexec hok hi]
    simp only [State.ctrBytesB, Reference.ctrBlock_getElem_xor, hcounter.modifiedIv_eq hlt, hcounter.modifiedIv_eq hi,
      counterLow_add_256, counterHigh_add_256]

/-- Settles O59: the value law of a block names neither N nor another block, nor slots 14 and 15 of the IV. -/
theorem ctrBlocksAreIndependent : Obligations.CtrBlocksAreIndependent := by
  constructor
  · intro n n' i s s' t t' hinv hinv' hfix hfix' hrk hiv hpt hi hi' hexec hok hexec' hok'
    have hmiv := Reference.modifiedIv_congr (iv := denoteA s.a.iv) (iv' := denoteA s'.a.iv) (by simpa using hiv)
    rw [denoteA_outA_of_ctrA_ok hinv hfix hexec hok hi, denoteA_outA_of_ctrA_ok hinv' hfix' hexec' hok' hi',
      State.ctrBytesA, State.ctrBytesA, hmiv, hrk, hpt]
  · intro n n' i s s' t t' hinv hinv' hrk hiv hlo hhi hkf hkt hpt hi hi' hexec hok hexec' hok'
    have hmiv := Reference.modifiedIv_congr (iv := denoteB s.b.iv) (iv' := denoteB s'.b.iv) (by simpa using hiv)
    rw [denoteB_outB_of_ctrB_ok hinv hexec hok hi, denoteB_outB_of_ctrB_ok hinv' hexec' hok' hi',
      State.ctrBytesB, State.ctrBytesB, hmiv, hrk, hlo, hhi, hkf, hkt, hpt]

/-- Settles O60: both commands XOR the same keystream block. -/
theorem ctrIsItsOwnInverse : Obligations.CtrIsItsOwnInverse := by
  constructor
  · intro n s s' t t' hinv hinv' hfix hfix' hrk hiv hexec hok hpt hexec' hok' i hi
    rw [denoteA_outA_of_ctrA_ok hinv' hfix' hexec' hok' hi, State.ctrBytesA, hpt i hi,
      denoteA_outA_of_ctrA_ok hinv hfix hexec hok hi, State.ctrBytesA, hrk, hiv, Reference.ctrBlock_ctrBlock]
  · intro n s s' t t' hinv hinv' hrk hiv hkf hkt hcm hexec hok hpt hexec' hok' i hi
    obtain ⟨hlo, hhi⟩ := hcm i hi
    rw [denoteB_outB_of_ctrB_ok hinv' hexec' hok' hi, State.ctrBytesB, hpt i hi,
      denoteB_outB_of_ctrB_ok hinv hexec hok hi, State.ctrBytesB, hrk, hiv, hkf, hkt, hlo, hhi,
      Reference.ctrBlock_ctrBlock]

end Sys2Proof.Machine
end

section
/-! What the host commands of 44_host_commands.md do, none of which evaluates a primitive (R259): the shape they share,
the checks of each rule as one list, the table check (R341), and what their operands and storage arrays read. -/

namespace Sys2Proof.Machine

/-- A command without evaluations ends with the error of its first failing check, or with its effect and an OK. -/
theorem exec_plain {i : Instr} {e : EngineId} {s : State} {checks : List (Bool × ErrCode)} {refusal : Option ErrCode}
    {f : State → State} {d : RespData} (hexec : exec i s = runPlain e checks f d s)
    (hchecks : firstError checks = refusal) :
    (∀ c, refusal = some c → exec i s = .next (s.erred e c)) ∧
    (refusal = none → exec i s = .next ((f s).completed d)) := by
  subst hchecks
  refine ⟨fun c hc => ?_, fun hnone => ?_⟩
  · rw [hexec, runPlain_error hc, State.raise_eq_erred]
  · rw [hexec, runPlain_ok hnone]

section Arms
variable (s : State)

/-! The meaning that `exec` gives each command of the family. -/

theorem exec_ldStA : exec .ldStA s = execLdStA s := rfl

theorem exec_ldStB : exec .ldStB s = execLdStB s := rfl

theorem exec_ldIvA : exec .ldIvA s = execLdIvA s := rfl

theorem exec_ldIvB : exec .ldIvB s = execLdIvB s := rfl

theorem exec_ldRkA : exec .ldRkA s = execLdRkA s := rfl

theorem exec_ldRkB : exec .ldRkB s = execLdRkB s := rfl

theorem exec_ldPtA (idx : Nat) : exec (.ldPtA idx) s = execLdPtA idx s := rfl

theorem exec_ldPtB (idx : Nat) : exec (.ldPtB idx) s = execLdPtB idx s := rfl

theorem exec_ldCmloB : exec .ldCmloB s = execLdCmloB s := rfl

theorem exec_ldCmhiB : exec .ldCmhiB s = execLdCmhiB s := rfl

theorem exec_ldKonstB : exec .ldKonstB s = execLdKonstB s := rfl

theorem exec_stStA : exec .stStA s = execStStA s := rfl

theorem exec_stStB : exec .stStB s = execStStB s := rfl

theorem exec_stOutA (idx : Nat) : exec (.stOutA idx) s = execStOutA idx s := rfl

theorem exec_stOutB (idx : Nat) : exec (.stOutB idx) s = execStOutB idx s := rfl

theorem exec_setkeyEkA : exec .setkeyEkA s = execSetkeyEkA s := rfl

theorem exec_setkeyEkB : exec .setkeyEkB s = execSetkeyEkB s := rfl

theorem exec_setkeySkB : exec .setkeySkB s = execSetkeySkB s := rfl

theorem exec_resetA : exec .resetA s = execResetA s := rfl

theorem exec_resetB : exec .resetB s = execResetB s := rfl

end Arms

section Checks
variable (s : State)

/-! The list of checks of each command answers as its rule does (R313). After `simp only` both sides are the same cascade,
the machine's with `beats` for the length of the payload, which `rfl` unfolds. -/

theorem firstError_loadBlockChecks : firstError (loadBlockChecks s) = loadBlockRefusal s := by
  simp only [loadBlockChecks, firstError_cons, firstError_nil, Bool.not_eq_true', decide_eq_true_eq]
  rfl

theorem firstError_loadScheduleChecks (rkv : Bool) :
    firstError (loadScheduleChecks s rkv) = loadScheduleRefusal s rkv := by
  simp only [loadScheduleChecks, firstError_cons, firstError_nil, Bool.not_eq_true', decide_eq_true_eq]
  rfl

theorem firstError_loadPtChecks (idx : Nat) : firstError (loadPtChecks s idx) = loadPtRefusal s idx := by
  simp only [loadPtChecks, firstError_cons, firstError_nil, Bool.not_eq_true', decide_eq_true_eq]
  rfl

theorem firstError_loadCounterChecks : firstError (loadCounterChecks s) = loadCounterRefusal s := by
  simp only [loadCounterChecks, firstError_cons, firstError_nil, Bool.not_eq_true', decide_eq_true_eq]
  rfl

theorem firstError_eq_loadKonstRefusal :
    firstError [(!s.tblok, .tableMalformed), (decide (s.beats ≠ 2), .sizeList)] = loadKonstRefusal s := by
  simp only [firstError_cons, firstError_nil, Bool.not_eq_true', decide_eq_true_eq]
  rfl

theorem firstError_eq_storeStRefusal (stv : Bool) :
    firstError [(!s.tblok, .tableMalformed), (!stv, .notLoaded)] = storeStRefusal s stv := by
  simp only [firstError_cons, firstError_nil, Bool.not_eq_true']
  rfl

theorem firstError_storeOutChecks (outn idx : Nat) :
    firstError (storeOutChecks s outn idx) = storeOutRefusal s outn idx := by
  simp only [storeOutChecks, firstError_cons, firstError_nil, Bool.not_eq_true', decide_eq_true_eq]
  rfl

theorem firstError_eq_setkeyRefusal (attached : Bool) :
    firstError [(!s.tblok, .tableMalformed), (attached, .immutable)] = setkeyRefusal s attached := by
  simp only [firstError_cons, firstError_nil, Bool.not_eq_true']
  rfl

end Checks

section TableCheck

theorem pairwiseDistinct_iff_nodup (l : List Byte) : pairwiseDistinct l = true ↔ l.Nodup := by
  induction l with
  | nil => simp [pairwiseDistinct]
  | cons x xs ih => simp [pairwiseDistinct, ih]

/-- The table check passes just when the inputs are pairwise distinct (R302, R341). -/
theorem tableCheck_iff_distinctInputs (table : Vector (Byte × Byte) 256) :
    tableCheck table = true ↔ distinctInputs table := by
  rw [tableCheck, pairwiseDistinct_iff_nodup]
  refine ⟨fun hnodup j k hjk => ?_, nodup_inputs⟩
  simpa using List.pairwise_iff_getElem.1 hnodup j k (by simp) (by simp) hjk

end TableCheck

section Operands
variable {s : State} {n k : Nat}

/-- Slot `k` of an array that a load writes is beat `k` of the payload (R63). -/
theorem beatsA_getElem {c : CtA} (hk : k < n) (h : s.payload[k]? = some (.arith c)) : (s.beatsA n)[k] = c := by
  simp [State.beatsA, State.beatA, h, Beat.toArith]

theorem beatB_of_bits {v : BvByte} (h : s.payload[k]? = some (.bits v)) : s.beatB k = v := by
  simp [State.beatB, h, Beat.toBits]

theorem beatsB_getElem {v : BvByte} (hk : k < n) (h : s.payload[k]? = some (.bits v)) : (s.beatsB n)[k] = v := by
  simp [State.beatsB, beatB_of_bits h]

theorem beatBit_of_bit {c : CtB} (h : s.payload[k]? = some (.bit c)) : s.beatBit k = c := by
  simp [State.beatBit, h, Beat.toBit]

end Operands

section Arrays
variable {α : Type} [DecidableEq α] {d : Block α} {n : Nat} {e : Engine α}

/-- LD.PT writes the block that it names and its flag, and no other block or flag (R253). -/
theorem Engine.Inv.loadPt_reads (h : e.Inv d n) (idx : Nat) (blk : Block α) :
    Memory.read d (Engine.loadPt d idx blk e).pt idx = blk ∧ (Engine.loadPt d idx blk e).ptValid idx = true ∧
    ∀ i, i ≠ idx → Memory.read d (Engine.loadPt d idx blk e).pt i = Memory.read d e.pt i ∧
      (Engine.loadPt d idx blk e).ptValid i = e.ptValid i := by
  have hpt := Memory.read_write e.pt h.pt_wf idx (v := blk)
  have hptv := Memory.read_write e.ptv h.ptv_wf idx (v := true)
  exact ⟨(hpt idx).trans (if_pos rfl), (hptv idx).trans (if_pos rfl), fun i hi =>
    ⟨(hpt i).trans (if_neg hi), (hptv i).trans (if_neg hi)⟩⟩

variable {s : State} {m : Memory BvByte} {k : Nat}

/-- A counter list filled from the payload holds beat `k` as entry `k` (R254, R255). -/
theorem Memory.read_fill_beats (hm : Memory.wf BvByte.blank m) {v : BvByte} (h : s.payload[k]? = some (.bits v)) :
    Memory.read BvByte.blank (Memory.fill BvByte.blank m s.beats s.beatB) k = v := by
  have hk : k < s.beats := (List.getElem?_eq_some_iff.1 h).1
  rw [Memory.read_fill hm, if_pos hk, beatB_of_bits h]

/-- A counter list filled from the payload keeps what it held from the end of the payload on (R254, R255). -/
theorem Memory.read_fill_beats_of_le (hm : Memory.wf BvByte.blank m) (hk : s.payload.length ≤ k) :
    Memory.read BvByte.blank (Memory.fill BvByte.blank m s.beats s.beatB) k = Memory.read BvByte.blank m k :=
  (Memory.read_fill hm _ _ k).trans (if_neg (Nat.not_lt.2 hk))

end Arrays

end Sys2Proof.Machine
end

section
/-! The statements about the host commands: each follows from its checks and its effect (R250 to R263). -/

namespace Sys2Proof.Machine

/-- Settles O13: neither command has a check, and TBLOK takes the result of the table check. -/
theorem resetCommandsResetOneEngine : Obligations.ResetCommandsResetOneEngine := by
  refine ⟨rfl, rfl, fun s => ⟨tableCheck s.sbox, tableCheck_iff_distinctInputs s.sbox, ?_, ?_⟩⟩
  · exact (exec_resetA s).trans (runPlain_ok firstError_nil)
  · exact (exec_resetB s).trans (runPlain_ok firstError_nil)

/-- Settles O43: past the checks of R253 the block named holds the beats, its flag is set, and no other entry is
written. -/
theorem loadInputBlockStoresThePayload : Obligations.LoadInputBlockStoresThePayload := by
  intro idx s
  obtain ⟨errA, okA⟩ := exec_plain (exec_ldPtA s idx) (firstError_loadPtChecks s idx)
  obtain ⟨errB, okB⟩ := exec_plain (exec_ldPtB s idx) (firstError_loadPtChecks s idx)
  refine ⟨rfl, rfl, fun c hc => ⟨errA c hc, errB c hc⟩, fun hnone hinv => ?_⟩
  obtain ⟨blockA, flagA, othersA⟩ := hinv.engine_a.loadPt_reads idx (s.beatsA 16)
  obtain ⟨blockB, flagB, othersB⟩ := hinv.engine_b.loadPt_reads idx (s.beatsB 16)
  exact ⟨⟨_, okA hnone, rfl, fun k hk c hc => (congrArg (·[k]) blockA).trans (beatsA_getElem hk hc), flagA, othersA⟩,
    ⟨_, okB hnone, rfl, fun k hk v hv => (congrArg (·[k]) blockB).trans (beatsB_getElem hk hv), flagB, othersB⟩⟩

/-- Settles O44: each list is filled from the payload below the number of beats, which becomes its length. -/
theorem loadCounterListsStoresThePayload : Obligations.LoadCounterListsStoresThePayload := by
  refine ⟨rfl, rfl, fun s => ?_⟩
  obtain ⟨errLo, okLo⟩ := exec_plain (exec_ldCmloB s) (firstError_loadCounterChecks s)
  obtain ⟨errHi, okHi⟩ := exec_plain (exec_ldCmhiB s) (firstError_loadCounterChecks s)
  exact ⟨fun c hc => ⟨errLo c hc, errHi c hc⟩, fun hnone hinv =>
    ⟨⟨_, okLo hnone, rfl, fun k v => Memory.read_fill_beats hinv.store_b.cmlo_wf,
        fun k => Memory.read_fill_beats_of_le hinv.store_b.cmlo_wf⟩,
      ⟨_, okHi hnone, rfl, fun k v => Memory.read_fill_beats hinv.store_b.cmhi_wf,
        fun k => Memory.read_fill_beats_of_le hinv.store_b.cmhi_wf⟩⟩⟩

/-- Settles O40: past the checks of R250 the new block is the beats in slot order. -/
theorem loadWorkingBlockStoresThePayload : Obligations.LoadWorkingBlockStoresThePayload := by
  refine ⟨rfl, rfl, fun s => ?_⟩
  obtain ⟨errA, okA⟩ := exec_plain (exec_ldStA s) (firstError_loadBlockChecks s)
  obtain ⟨errB, okB⟩ := exec_plain (exec_ldStB s) (firstError_loadBlockChecks s)
  exact ⟨fun c hc => ⟨errA c hc, errB c hc⟩, fun hnone =>
    ⟨⟨s.beatsA 16, okA hnone, fun k hk c => beatsA_getElem hk⟩,
      ⟨s.beatsB 16, okB hnone, fun k hk v => beatsB_getElem hk⟩⟩⟩

/-- Settles O41: past the checks of R251 the new IV is the beats in slot order. -/
theorem loadIvStoresThePayload : Obligations.LoadIvStoresThePayload := by
  refine ⟨rfl, rfl, fun s => ?_⟩
  obtain ⟨errA, okA⟩ := exec_plain (exec_ldIvA s) (firstError_loadBlockChecks s)
  obtain ⟨errB, okB⟩ := exec_plain (exec_ldIvB s) (firstError_loadBlockChecks s)
  exact ⟨fun c hc => ⟨errA c hc, errB c hc⟩, fun hnone =>
    ⟨⟨s.beatsA 16, okA hnone, fun k hk c => beatsA_getElem hk⟩,
      ⟨s.beatsB 16, okB hnone, fun k hk v => beatsB_getElem hk⟩⟩⟩

/-- Settles O42: the checks of R252 look at the flag of the engine's own schedule, and past them the schedule is the
beats in slot order. -/
theorem loadScheduleStoresThePayloadOnce : Obligations.LoadScheduleStoresThePayloadOnce := by
  refine ⟨rfl, rfl, fun s => ?_⟩
  obtain ⟨errA, okA⟩ := exec_plain (exec_ldRkA s) (firstError_loadScheduleChecks s s.a.rkv)
  obtain ⟨errB, okB⟩ := exec_plain (exec_ldRkB s) (firstError_loadScheduleChecks s s.b.rkv)
  exact ⟨errA, errB, fun hnone => ⟨s.beatsA 176, okA hnone, fun k hk c => beatsA_getElem hk⟩,
    fun hnone => ⟨s.beatsB 176, okB hnone, fun k hk v => beatsB_getElem hk⟩⟩

/-- Settles O45: the two constants are the two beats read as boolean ciphertexts. -/
theorem loadConstantsStoresThePayload : Obligations.LoadConstantsStoresThePayload := by
  refine ⟨rfl, fun s => ?_⟩
  obtain ⟨err, ok⟩ := exec_plain (exec_ldKonstB s) (firstError_eq_loadKonstRefusal s)
  exact ⟨err, fun hnone => ⟨s.beatBit 0, s.beatBit 1, ok hnone, fun c => beatBit_of_bit, fun c => beatBit_of_bit⟩⟩

/-- Settles O46: the effect is the identity, and the block stands in the response. -/
theorem storeWorkingBlockReturnsTheBlock : Obligations.StoreWorkingBlockReturnsTheBlock := by
  refine ⟨rfl, rfl, fun s => ?_⟩
  obtain ⟨errA, okA⟩ := exec_plain (exec_stStA s) (firstError_eq_storeStRefusal s s.a.stv)
  obtain ⟨errB, okB⟩ := exec_plain (exec_stStB s) (firstError_eq_storeStRefusal s s.b.stv)
  exact ⟨errA, errB, okA, okB⟩

/-- Settles O47: the effect is the identity, and the block named stands in the response. -/
theorem storeOutputBlockReturnsTheBlock : Obligations.StoreOutputBlockReturnsTheBlock := by
  intro idx s
  obtain ⟨errA, okA⟩ := exec_plain (exec_stOutA s idx) (firstError_storeOutChecks s s.a.outn idx)
  obtain ⟨errB, okB⟩ := exec_plain (exec_stOutB s idx) (firstError_storeOutChecks s s.b.outn idx)
  exact ⟨rfl, rfl, errA, errB, okA, okB⟩

/-- Settles O48: each of the three commands checks the flag that it sets. -/
theorem setkeyAttachesAKeyOnce : Obligations.SetkeyAttachesAKeyOnce := by
  refine ⟨rfl, rfl, rfl, fun s => ?_⟩
  obtain ⟨errEkA, okEkA⟩ := exec_plain (exec_setkeyEkA s) (firstError_eq_setkeyRefusal s s.a.ekv)
  obtain ⟨errEkB, okEkB⟩ := exec_plain (exec_setkeyEkB s) (firstError_eq_setkeyRefusal s s.b.ekv)
  obtain ⟨errSkB, okSkB⟩ := exec_plain (exec_setkeySkB s) (firstError_eq_setkeyRefusal s s.bx.skv)
  exact ⟨errEkA, errEkB, errSkB, okEkA, okEkB, okSkB⟩

end Sys2Proof.Machine
end

section
/-! The decoder against the clauses of R96: each part of it answers a command just when no clause speaks against the
fields it reads, and a step refuses every other command (R309). -/

namespace Sys2Proof.Machine

section Legality
variable {f : Fields}

/-! The operations with a SEL table of their own (R92, R93), by the values that SEL may have. -/

theorem exists_decodeLoad_iff :
    (∃ i, decodeLoad f = .ok i) ↔ selectorListed 7 f.eng f.sel = true ∧ (argFree 7 f.sel = true ∨ f.arg = 0) := by
  unfold decodeLoad
  split <;> cases heng : f.eng <;> simp_all [selectorListed, argFree]

theorem exists_decodeStore_iff :
    (∃ i, decodeStore f = .ok i) ↔ selectorListed 8 f.eng f.sel = true ∧ (argFree 8 f.sel = true ∨ f.arg = 0) := by
  unfold decodeStore
  split <;> cases heng : f.eng <;> simp_all [selectorListed, argFree]

theorem exists_decodeDecrypt_iff :
    (∃ i, decodeDecrypt f = .ok i) ↔ selectorListed 9 f.eng f.sel = true ∧ f.eng = .B := by
  unfold decodeDecrypt
  split <;> simp_all [selectorListed]

theorem exists_decodeSetkey_iff :
    (∃ i, decodeSetkey f = .ok i) ↔ selectorListed 10 f.eng f.sel = true ∧ f.arg = 0 := by
  unfold decodeSetkey
  split <;> cases heng : f.eng <;> simp_all [selectorListed]

theorem exists_decodeRdstat_iff :
    (∃ i, decodeRdstat f = .ok i) ↔ selectorListed 11 f.eng f.sel = true ∧ f.arg = 0 := by
  unfold decodeRdstat
  split <;> cases heng : f.eng <;> simp_all [selectorListed]

/-- The clauses of R96 but the one on the payload, by OP: the operations without a SEL table require SEL = 0. -/
theorem exists_decodeFields_iff (hop : f.op < 16) :
    (∃ i, decodeFields f = .ok i) ↔
      f.op ∉ [0x0, 0xC, 0xD, 0xE] ∧ f.rsv = 0 ∧ selectorListed f.op f.eng f.sel = true ∧
        (argFree f.op f.sel = true ∨ f.arg = 0) ∧ ¬ (f.op = 0x9 ∧ f.eng = .A) := by
  obtain ⟨op, eng, rsv, sel, arg⟩ := f
  by_cases hrsv : rsv = 0
  · change op < 16 at hop
    interval_cases op <;> cases eng <;>
      simp [decodeFields, hrsv, exists_decodeLoad_iff, exists_decodeStore_iff, exists_decodeDecrypt_iff,
        exists_decodeSetkey_iff, exists_decodeRdstat_iff, selectorListed, argFree]
  · simp [decodeFields, hrsv]

end Legality

section IllegalCommands
variable {w : Word} {n : Nat}

/-- The payload is one more clause: only OP 0x7 carries one (R94). -/
theorem exists_decode_iff :
    (∃ i, decode w n = .ok i) ↔ (∃ i, decodeFields (fieldsOf w) = .ok i) ∧ (bitField w 31 28 = 7 ∨ n = 0) := by
  simp only [decode_eq_ok_iff, decodeFields_eq_ok_iff, isLoad_iff_op, exists_and_right.symm]
  exact exists_congr fun i => and_congr_right fun hf => by rw [← hf, fieldsOf]

/-- A command decodes exactly when no clause of R96 holds. -/
theorem exists_decode_iff_not_illegal : (∃ i, decode w n = .ok i) ↔ ¬ illegal w n := by
  have hop : (fieldsOf w).op < 16 := Nat.mod_lt _ (by decide)
  rw [exists_decode_iff, exists_decodeFields_iff hop]
  simp only [fieldsOf, illegal, not_or, not_and_or, ne_eq, not_not, Bool.not_eq_false]
  tauto

/-- What a step does with a command that does not decode. -/
theorem step_illegalCommand {s : State} {p : List Beat} {b : Bool} {rest : List HostInput} {e : Illegal}
    (hs : s.input = .command w p b :: rest) (hd : decode w p.length = .error e) :
    step s = .next (illegalCommand w (s.accept p b rest)) := by
  simp [step, hs, hd]

/-- The step refuses an illegal command: IllegalCmd on the engine of bit 27, the payload dropped (R309, R314). -/
theorem step_of_illegal {s : State} {p : List Beat} {b : Bool} {rest : List HostInput}
    (hs : s.input = .command w p b :: rest) (hill : illegal w p.length) :
    step s = .next (State.erred { s with input := rest } (engineOf w) .illegalCmd) := by
  obtain ⟨e, he⟩ : ∃ e, decode w p.length = .error e :=
    decode_error_of_not_ok fun i hi => exists_decode_iff_not_illegal.1 ⟨i, hi⟩ hill
  rw [step_illegalCommand hs he, illegalCommand, State.raise_eq_erred]
  cases engineOf w <;> rfl

end IllegalCommands

/-- Settles O4: the clauses of R96 are the decoder's errors, each of which the step takes as IllegalCmd. -/
theorem illegalCommandsAreRefused : Obligations.IllegalCommandsAreRefused := fun _ _ _ _ _ hs =>
  ⟨step_of_illegal hs, exists_decode_iff_not_illegal.2⟩

end Sys2Proof.Machine
end

section
/-! What an error leaves of the state (R314): each of the two shapes of command changes nothing on a failing check, and
invalidates its destination on GateFail (R307); no check raises GateFail. -/

namespace Sys2Proof.Machine

/-- The outcomes of the two shapes of command at `s`, for a command of engine `e` that leaves `dropped` when its
destination is invalidated. The checks come first, and GateFail is not an error of theirs (R313, R320). -/
inductive HasShape (e : EngineId) (s dropped : State) : Result → Prop
  | plain {checks : List (Bool × ErrCode)} {f : State → State} {d : RespData}
      (hchecks : .gateFail ∉ checks.map Prod.snd) : HasShape e s dropped (runPlain e checks f d s)
  | evaluating {checks : List (Bool × ErrCode)} {work : Bool} {drop : State → State} {f : Ticket → State → State}
      (hchecks : .gateFail ∉ checks.map Prod.snd) (hdrop : drop s = dropped) :
      HasShape e s dropped (runEvaluating e checks work drop f s)

/-- Every command has one of the two shapes, on its own engine and with its own destination. -/
theorem exec_hasShape (i : Instr) (s : State) : HasShape i.engine s (i.invalidated s) (exec i s) := by
  cases i <;> simp only [exec]
  case addrkA | addrkB | subbA | subbB | mixcA | mixcB | encblkA | encblkB | ctrA | ctrB =>
    exact .evaluating (by simp) rfl
  all_goals
    exact .plain (by simp [loadBlockChecks, loadScheduleChecks, loadPtChecks, loadCounterChecks, storeOutChecks])

/-- The error of a failing check is not GateFail where no check raises it. -/
theorem ne_gateFail_of_firstError {checks : List (Bool × ErrCode)} {c : ErrCode}
    (hchecks : .gateFail ∉ checks.map Prod.snd) (h : firstError checks = some c) : c ≠ .gateFail := by
  rintro rfl
  exact hchecks (List.mem_map_of_mem (firstError_mem h))

/-- The code that a command responds with is the one its error was taken with. -/
theorem State.erred_response (s : State) (e : EngineId) (c : ErrCode) : (s.erred e c).response = some (.error c) := by
  cases e <;> rfl

/-- A command that took the error `d` and responds the error `c` is in the erred state of the claims for `c`. -/
theorem eq_erred_of_raise {s t : State} {e : EngineId} {c d : ErrCode} {r : Result} (h : r = .next (s.raise e d))
    (ht : r = .next t) (hc : t.response = some (.error c)) : t = s.erred e c ∧ c = d := by
  cases h.symm.trans ht
  rw [State.raise_eq_erred, State.erred_response] at hc
  cases hc
  exact ⟨s.raise_eq_erred e c, rfl⟩

/-- The error of a command of either shape is that of a failing check, with nothing invalidated, or GateFail after the
work; an OK outcome responds no error. -/
theorem HasShape.eq_erred {e : EngineId} {s dropped t : State} {r : Result} {c : ErrCode}
    (h : HasShape e s dropped r) (ht : r = .next t) (hc : t.response = some (.error c)) :
    t = State.erred (if c = .gateFail then dropped else s) e c := by
  cases h with
  | @plain checks f data hchecks =>
    obtain ⟨c', hfirst, heq⟩ | ⟨-, heq⟩ := runPlain_cases e checks f data s
    · obtain ⟨rfl, rfl⟩ := eq_erred_of_raise heq ht hc
      rw [if_neg (ne_gateFail_of_firstError hchecks hfirst)]
    · cases heq.symm.trans ht
      cases hc
  | @evaluating checks work drop f hchecks hdrop =>
    obtain ⟨c', hfirst, heq⟩ | ⟨-, -, -, heq⟩ | ⟨-, -, heq⟩ := runEvaluating_cases e checks work drop f s
    · obtain ⟨rfl, rfl⟩ := eq_erred_of_raise heq ht hc
      rw [if_neg (ne_gateFail_of_firstError hchecks hfirst)]
    · obtain ⟨rfl, rfl⟩ := eq_erred_of_raise heq ht hc
      rw [if_pos rfl, hdrop]
    · cases heq.symm.trans ht
      cases hc

/-- Settles O16: every command has one of the two shapes, and an illegal command is refused by its step. -/
theorem errorChangesOnlyTheStickyPair : Obligations.ErrorChangesOnlyTheStickyPair :=
  ⟨fun i s _ _ hexec hc => (exec_hasShape i s).eq_erred hexec hc, fun _ _ _ _ _ _ hs hill hstep =>
    (Host.Outcome.next.inj ((step_of_illegal hs hill).symm.trans hstep)).symm⟩

end Sys2Proof.Machine
end

section
/-! Every command as data. Whatever a command ends with, what it does to the state is one `Change`: an update of each
engine, an update of engine B's own store, and whether it runs the table check again or counts as an evaluating command.
`exec_eq` ties this to the machine; the statements about every command are then statements about the few kinds of
update. -/

namespace Sys2Proof.Machine

/-- The entries of an array from index 0 on become the values of a list. -/
def Memory.put {α : Type} [DecidableEq α] (d : α) (m : Memory α) (vs : List α) : Memory α :=
  Memory.fill d m vs.length (vs.getD · d)

/-- What a command may do to one engine. -/
inductive EngineUpdate (α : Type) where
  /-- The engine stays as it is. -/
  | keep
  /-- An error that leaves every destination as it is (R314a). -/
  | error (c : ErrCode)
  /-- GateFail of an in-place command (R307). -/
  | failSt
  /-- GateFail of CTR (R307). -/
  | failOut
  | putSt (blk : Block α)
  | loadSt (blk : Block α)
  | loadIv (blk : Block α)
  | loadRk (sched : Schedule α)
  | loadPt (idx : Nat) (blk : Block α)
  /-- CTR of as many blocks as the list has (R222, R223). -/
  | putOut (blks : List (Block α))
  | attachEk
  | reset

/-- The engine after an update; `d` is what an unlisted block reads as. -/
def EngineUpdate.apply {α : Type} [DecidableEq α] (u : EngineUpdate α) (d : Block α) (e : Engine α) : Engine α :=
  match u with
  | .keep => e
  | .error c => Engine.recordError c e
  | .failSt => Engine.recordError .gateFail (Engine.dropSt e)
  | .failOut => Engine.recordError .gateFail (Engine.dropOut e)
  | .putSt blk => Engine.putSt blk e
  | .loadSt blk => Engine.loadSt blk e
  | .loadIv blk => Engine.loadIv blk e
  | .loadRk sched => Engine.loadRk sched e
  | .loadPt idx blk => Engine.loadPt d idx blk e
  | .putOut blks => Engine.putOut d blks.length (blks.getD · d) e
  | .attachEk => Engine.attachEk e
  | .reset => Engine.reset e

@[simp] theorem EngineUpdate.apply_keep {α : Type} [DecidableEq α] (d : Block α) (e : Engine α) :
    EngineUpdate.keep.apply d e = e := rfl

/-- What a command may do to the state only engine B has. -/
inductive StoreUpdate where
  /-- The store stays as it is. -/
  | keep
  /-- LD.CMLO.B of a list (R254). -/
  | loadCmlo (vs : List BvByte)
  /-- LD.CMHI.B of a list (R255). -/
  | loadCmhi (vs : List BvByte)
  | loadKonst (kf kt : CtB)
  | attachSk
  | reset

/-- The store after an update. -/
def StoreUpdate.apply (u : StoreUpdate) (x : BoolStore) : BoolStore :=
  match u with
  | .keep => x
  | .loadCmlo vs => { x with cmlo := Memory.put BvByte.blank x.cmlo vs, cmlon := vs.length }
  | .loadCmhi vs => { x with cmhi := Memory.put BvByte.blank x.cmhi vs, cmhin := vs.length }
  | .loadKonst kf kt => { x with kf := kf, kt := kt, kv := true }
  | .attachSk => { x with skv := true }
  | .reset => x.reset

@[simp] theorem StoreUpdate.apply_keep (x : BoolStore) : StoreUpdate.keep.apply x = x := rfl

/-- What a command may do to the state, its port left aside. -/
structure Change where
  a : EngineUpdate CtA := .keep
  b : EngineUpdate BvByte := .keep
  bx : StoreUpdate := .keep
  /-- The table check is run again (R341). -/
  recheck : Bool := false
  /-- The command took a number that names the free values of its results (assumption 2). -/
  numbered : Bool := false

/-- The state after a change. -/
def Change.apply (c : Change) (s : State) : State :=
  { s with
    a := c.a.apply blankBlockA s.a
    b := c.b.apply blankBlockB s.b
    bx := c.bx.apply s.bx
    tblok := if c.recheck then tableCheck s.sbox else s.tblok
    fresh := if c.numbered then s.fresh + 1 else s.fresh }

/-- An error of a command of engine `e` that invalidates nothing (R314). -/
def Change.error (e : EngineId) (c : ErrCode) : Change :=
  match e with
  | .A => { a := .error c }
  | .B => { b := .error c }

section ChangeApply
variable (c : Change) (s : State)

@[simp] theorem Change.apply_a : (c.apply s).a = c.a.apply blankBlockA s.a := rfl
@[simp] theorem Change.apply_b : (c.apply s).b = c.b.apply blankBlockB s.b := rfl
@[simp] theorem Change.apply_bx : (c.apply s).bx = c.bx.apply s.bx := rfl
@[simp] theorem Change.apply_sbox : (c.apply s).sbox = s.sbox := rfl
@[simp] theorem Change.apply_cap : (c.apply s).cap = s.cap := rfl
@[simp] theorem Change.apply_tblok : (c.apply s).tblok = if c.recheck then tableCheck s.sbox else s.tblok := rfl
@[simp] theorem Change.apply_input : (c.apply s).input = s.input := rfl
@[simp] theorem Change.apply_fresh : (c.apply s).fresh = if c.numbered then s.fresh + 1 else s.fresh := rfl

end ChangeApply

theorem Change.error_apply (e : EngineId) (c : ErrCode) (s : State) :
    ((Change.error e c).apply s).respond (.error c) = s.raise e c := by
  cases e <;> rfl

end Sys2Proof.Machine

namespace Sys2Proof

open Machine

/-- The error of the first check of a command that fails, each command by the checks of its rule. -/
def Instr.refusal (i : Instr) (s : State) : Option ErrCode :=
  match i with
  | .addrkA t => inPlaceRefusal s s.a (decide (10 < t)) true false true
  | .addrkB t => inPlaceRefusal s s.b (decide (10 < t)) true false true
  | .subbA | .mixcA => inPlaceRefusal s s.a false false false true
  | .subbB => inPlaceRefusal s s.b false false false true
  | .mixcB => inPlaceRefusal s s.b false false true true
  | .shrowA => inPlaceRefusal s s.a false false false false
  | .shrowB => inPlaceRefusal s s.b false false false false
  | .encblkA => inPlaceRefusal s s.a false true false true
  | .encblkB => inPlaceRefusal s s.b false true true true
  | .ctrA n => ctrRefusalA s n
  | .ctrB n => ctrRefusalB s n
  | .ldStA | .ldStB | .ldIvA | .ldIvB => loadBlockRefusal s
  | .ldRkA => loadScheduleRefusal s s.a.rkv
  | .ldRkB => loadScheduleRefusal s s.b.rkv
  | .ldPtA idx | .ldPtB idx => loadPtRefusal s idx
  | .ldCmloB | .ldCmhiB => loadCounterRefusal s
  | .ldKonstB => loadKonstRefusal s
  | .stStA => storeStRefusal s s.a.stv
  | .stStB => storeStRefusal s s.b.stv
  | .stOutA idx => storeOutRefusal s s.a.outn idx
  | .stOutB idx => storeOutRefusal s s.b.outn idx
  | .decryptB mode idx => decryptRefusal s mode idx
  | .setkeyEkA => setkeyRefusal s s.a.ekv
  | .setkeyEkB => setkeyRefusal s s.b.ekv
  | .setkeySkB => setkeyRefusal s s.bx.skv
  | .rdstatStatusA | .rdstatStatusB | .rdstatOutnA | .rdstatOutnB | .rdstatCmlonB | .rdstatCmhinB | .rdstatCapA
  | .rdstatCapB | .resetA | .resetB => none

/-- Whether the command has a primitive to evaluate, so that PRIMFAIL makes it fail (R320). -/
def Instr.works (i : Instr) : Bool :=
  match i with
  | .addrkA _ | .addrkB _ | .subbA | .subbB | .mixcA | .mixcB | .encblkA | .encblkB => true
  | .ctrA n | .ctrB n => decide (n ≠ 0)
  | _ => false

/-- The change of a command in which a primitive fails (R307). -/
def Instr.failure (i : Instr) : Change :=
  match i with
  | .addrkA _ | .subbA | .mixcA | .encblkA => { a := .failSt }
  | .addrkB _ | .subbB | .mixcB | .encblkB => { b := .failSt }
  | .ctrA _ => { a := .failOut }
  | .ctrB _ => { b := .failOut }
  | _ => {}

/-- The change of a command that completes. -/
def Instr.success (i : Instr) (s : State) : Change :=
  match i with
  | .addrkA t => { a := .putSt (addRoundKeyA s.a.rk [s.fresh] (Fin.ofNat 11 t) s.a.st), numbered := true }
  | .addrkB t => { b := .putSt (addRoundKeyB s.b.rk [s.fresh] (Fin.ofNat 11 t) s.b.st), numbered := true }
  | .subbA => { a := .putSt (subBytesA s.sbox [s.fresh] s.a.st), numbered := true }
  | .subbB => { b := .putSt (subBytesB [s.fresh] s.b.st), numbered := true }
  | .shrowA => { a := .putSt (shiftRows s.a.st) }
  | .shrowB => { b := .putSt (shiftRows s.b.st) }
  | .mixcA => { a := .putSt (mixColumnsA [s.fresh] s.a.st), numbered := true }
  | .mixcB => { b := .putSt (mixColumnsB s.bx.kf s.bx.kt [s.fresh] s.b.st), numbered := true }
  | .encblkA => { a := .putSt (encryptBlock s.transformsA [s.fresh] s.a.st), numbered := true }
  | .encblkB => { b := .putSt (encryptBlock s.transformsB [s.fresh] s.b.st), numbered := true }
  | .ctrA n => { a := .putOut ((List.range n).map (ctrBlockA s [s.fresh])), numbered := true }
  | .ctrB n => { b := .putOut ((List.range n).map (ctrBlockB s [s.fresh])), numbered := true }
  | .ldStA => { a := .loadSt (s.beatsA 16) }
  | .ldStB => { b := .loadSt (s.beatsB 16) }
  | .ldIvA => { a := .loadIv (s.beatsA 16) }
  | .ldIvB => { b := .loadIv (s.beatsB 16) }
  | .ldRkA => { a := .loadRk (s.beatsA 176) }
  | .ldRkB => { b := .loadRk (s.beatsB 176) }
  | .ldPtA idx => { a := .loadPt idx (s.beatsA 16) }
  | .ldPtB idx => { b := .loadPt idx (s.beatsB 16) }
  | .ldCmloB => { bx := .loadCmlo ((List.range s.beats).map s.beatB) }
  | .ldCmhiB => { bx := .loadCmhi ((List.range s.beats).map s.beatB) }
  | .ldKonstB => { bx := .loadKonst (s.beatBit 0) (s.beatBit 1) }
  | .setkeyEkA => { a := .attachEk }
  | .setkeyEkB => { b := .attachEk }
  | .setkeySkB => { bx := .attachSk }
  | .resetA => { a := .reset, recheck := true }
  | .resetB => { b := .reset, bx := .reset, recheck := true }
  | _ => {}

/-- The data that a command that completes responds with (R95). -/
def Instr.data (i : Instr) (s : State) : RespData :=
  match i with
  | .stStA => .blockA s.a.st
  | .stStB => .blockB s.b.st
  | .stOutA idx => .blockA (s.outA idx)
  | .stOutB idx => .blockB (s.outB idx)
  | .decryptB _ idx => .byte (BvByte.val s.b.st[Fin.ofNat 16 idx])
  | .rdstatStatusA => .word s.statusA
  | .rdstatStatusB => .word s.statusB
  | .rdstatOutnA => .word (BitVec.ofNat 32 s.a.outn)
  | .rdstatOutnB => .word (BitVec.ofNat 32 s.b.outn)
  | .rdstatCmlonB => .word (BitVec.ofNat 32 s.bx.cmlon)
  | .rdstatCmhinB => .word (BitVec.ofNat 32 s.bx.cmhin)
  | .rdstatCapA | .rdstatCapB => .word (BitVec.ofNat 32 s.cap.blocks)
  | _ => .empty

/-- What a command does to the state: refused by a check, failed by a primitive, or completed. -/
def Instr.change (i : Instr) (s : State) : Change :=
  match i.refusal s with
  | some c => .error i.engine c
  | none => if i.works && s.primfail then i.failure else i.success s

/-- What a command responds. -/
def Instr.response (i : Instr) (s : State) : Response :=
  match i.refusal s with
  | some c => .error c
  | none => if i.works && s.primfail then .error .gateFail else .ok (i.data s)

/-- The state after a command. -/
def Instr.run (i : Instr) (s : State) : State := ((i.change s).apply s).respond (i.response s)

/-- The three ways in which a command ends. -/
theorem Instr.change_cases (i : Instr) (s : State) :
    (∃ c, i.refusal s = some c ∧ i.change s = .error i.engine c ∧ i.response s = .error c) ∨
      (i.refusal s = none ∧ i.works = true ∧ s.primfail = true ∧ i.change s = i.failure ∧
        i.response s = .error .gateFail) ∨
      (i.refusal s = none ∧ (i.works && s.primfail) = false ∧ i.change s = i.success s ∧
        i.response s = .ok (i.data s)) := by
  unfold Instr.change Instr.response
  cases hr : i.refusal s with
  | some c => exact .inl ⟨c, rfl, rfl, rfl⟩
  | none =>
    cases hwork : i.works && s.primfail with
    | true =>
      obtain ⟨hworks, hprim⟩ := Bool.and_eq_true_iff.1 hwork
      exact .inr (.inl ⟨rfl, hworks, hprim, rfl, rfl⟩)
    | false => exact .inr (.inr ⟨rfl, rfl, rfl, rfl⟩)

/-- A property of errors, of the failure and of the completion of a command is one of what it does. -/
theorem Instr.change_of {P : Change → Prop} (i : Instr) (s : State) (herror : ∀ c, P (.error i.engine c))
    (hfailure : P i.failure) (hsuccess : i.refusal s = none → P (i.success s)) : P (i.change s) := by
  obtain ⟨c, -, hc, -⟩ | ⟨-, -, -, hc, -⟩ | ⟨hr, -, hc, -⟩ := i.change_cases s
  · exact hc ▸ herror c
  · exact hc ▸ hfailure
  · exact hc ▸ hsuccess hr

section RunFields
variable (i : Instr) (s : State)

@[simp] theorem Instr.run_a : (i.run s).a = (i.change s).a.apply blankBlockA s.a := rfl
@[simp] theorem Instr.run_b : (i.run s).b = (i.change s).b.apply blankBlockB s.b := rfl
@[simp] theorem Instr.run_bx : (i.run s).bx = (i.change s).bx.apply s.bx := rfl
@[simp] theorem Instr.run_sbox : (i.run s).sbox = s.sbox := rfl
@[simp] theorem Instr.run_cap : (i.run s).cap = s.cap := rfl
@[simp] theorem Instr.run_input : (i.run s).input = s.input := rfl
@[simp] theorem Instr.run_payload : (i.run s).payload = [] := rfl
@[simp] theorem Instr.run_primfail : (i.run s).primfail = false := rfl
@[simp] theorem Instr.run_response : (i.run s).response = some (i.response s) := rfl
@[simp] theorem Instr.run_tblok :
    (i.run s).tblok = if (i.change s).recheck then tableCheck s.sbox else s.tblok := rfl
@[simp] theorem Instr.run_fresh : (i.run s).fresh = if (i.change s).numbered then s.fresh + 1 else s.fresh := rfl

end RunFields

end Sys2Proof

namespace Sys2Proof.Machine

/-- Filling below `n` by a function is putting the list of its values. -/
theorem Memory.fill_eq_put {α : Type} [DecidableEq α] (d : α) (m : Memory α) (n : Nat) (f : Nat → α) :
    Memory.fill d m n f = Memory.put d m ((List.range n).map f) := by
  rw [Memory.put, List.length_map, List.length_range, Memory.fill, Memory.fill]
  refine List.foldl_ext _ _ m fun m' k hk => ?_
  simp [List.getD_eq_getElem?_getD, List.mem_range.1 hk]

theorem putOut_eq_apply {α : Type} [DecidableEq α] (d : Block α) (n : Nat) (o : Nat → Block α) (e : Engine α) :
    Engine.putOut d n o e = (EngineUpdate.putOut ((List.range n).map o)).apply d e := by
  have hfill := Memory.fill_eq_put d e.out n o
  rw [Memory.put] at hfill
  rw [EngineUpdate.apply, Engine.putOut, Engine.putOut, hfill, List.length_map, List.length_range]

section Exec
variable {i : Instr} {e : EngineId} {s : State} {checks : List (Bool × ErrCode)}

theorem runPlain_eq {f : State → State} {d : RespData} (hchecks : firstError checks = i.refusal s)
    (hf : f s = (i.success s).apply s := by
      simp [Instr.success, Change.apply, EngineUpdate.apply, StoreUpdate.apply, State.onA, State.onB, State.onBx])
    (he : i.engine = e := by rfl) (hworks : i.works = false := by rfl) (hd : i.data s = d := by rfl) :
    runPlain e checks f d s = .next (i.run s) := by
  subst he hd
  obtain ⟨c, hr, hc, hresp⟩ | ⟨-, hw, -⟩ | ⟨hr, -, hc, hresp⟩ := i.change_cases s
  · rw [runPlain_error (hchecks.trans hr), Instr.run, hc, hresp, Change.error_apply]
  · exact absurd hw (by simp [hworks])
  · rw [runPlain_ok (hchecks.trans hr), Instr.run, hc, hresp, hf, State.respond_ok]

theorem runEvaluating_eq {work : Bool} {drop : State → State} {f : Ticket → State → State}
    (hchecks : firstError checks = i.refusal s)
    (hf : { f [s.fresh] s with fresh := s.fresh + 1 } = (i.success s).apply s := by
      simp [Instr.success, Change.apply, EngineUpdate.apply, StoreUpdate.apply, State.onA, State.onB])
    (hdrop : (drop s).raise e .gateFail = (i.failure.apply s).respond (.error .gateFail) := by rfl)
    (he : i.engine = e := by rfl) (hwork : i.works = work := by rfl) (hd : i.data s = .empty := by rfl) :
    runEvaluating e checks work drop f s = .next (i.run s) := by
  subst he hwork
  obtain ⟨c, hr, hc, hresp⟩ | ⟨hr, hw, hp, hc, hresp⟩ | ⟨hr, hwork, hc, hresp⟩ := i.change_cases s
  · rw [runEvaluating_error (hchecks.trans hr), Instr.run, hc, hresp, Change.error_apply]
  · rw [runEvaluating_gateFail (hchecks.trans hr) hw hp, Instr.run, hc, hresp, hdrop]
  · rw [runEvaluating_ok (hchecks.trans hr) (Bool.and_eq_false_iff.1 hwork), Instr.run, hc, hresp, hf, hd,
      State.respond_ok]

end Exec

/-- Every command of the machine does its change and gives its response. -/
theorem exec_eq (i : Instr) (s : State) : exec i s = .next (i.run s) := by
  cases i <;> simp only [exec]
  case addrkA t => exact runEvaluating_eq (firstError_eq_inPlaceRefusal s s.a (decide (10 < t)) true false true)
  case addrkB t => exact runEvaluating_eq (firstError_eq_inPlaceRefusal s s.b (decide (10 < t)) true false true)
  case subbA | mixcA => exact runEvaluating_eq (firstError_eq_inPlaceRefusal s s.a false false false true)
  case subbB => exact runEvaluating_eq (firstError_eq_inPlaceRefusal s s.b false false false true)
  case mixcB => exact runEvaluating_eq (firstError_eq_inPlaceRefusal s s.b false false true true)
  case shrowA => exact runPlain_eq (firstError_eq_inPlaceRefusal s s.a false false false false)
  case shrowB => exact runPlain_eq (firstError_eq_inPlaceRefusal s s.b false false false false)
  case encblkA => exact runEvaluating_eq (firstError_eq_inPlaceRefusal s s.a false true false true)
  case encblkB => exact runEvaluating_eq (firstError_eq_inPlaceRefusal s s.b false true true true)
  case ctrA n =>
    exact runEvaluating_eq (firstError_eq_ctrRefusalA s n)
      (by simp [Instr.success, Change.apply, putOut_eq_apply, State.onA])
  case ctrB n =>
    exact runEvaluating_eq (firstError_eq_ctrRefusalB s n)
      (by simp [Instr.success, Change.apply, putOut_eq_apply, State.onB])
  case ldStA | ldStB | ldIvA | ldIvB => exact runPlain_eq (firstError_loadBlockChecks s)
  case ldRkA | ldRkB => exact runPlain_eq (firstError_loadScheduleChecks s _)
  case ldPtA idx | ldPtB idx => exact runPlain_eq (firstError_loadPtChecks s idx)
  case ldCmloB | ldCmhiB =>
    refine runPlain_eq (firstError_loadCounterChecks s) ?_
    simp [Instr.success, Change.apply, State.onBx, Memory.fill_eq_put, StoreUpdate.apply, EngineUpdate.apply]
  case ldKonstB => exact runPlain_eq (firstError_eq_loadKonstRefusal s)
  case stStA | stStB => exact runPlain_eq (firstError_eq_storeStRefusal s _)
  case stOutA idx | stOutB idx => exact runPlain_eq (firstError_storeOutChecks s _ idx)
  case decryptB mode idx => exact runPlain_eq (firstError_eq_decryptRefusal s mode idx)
  case setkeyEkA | setkeyEkB | setkeySkB => exact runPlain_eq (firstError_eq_setkeyRefusal s _)
  case resetA | resetB => exact runPlain_eq firstError_nil rfl
  all_goals exact runPlain_eq firstError_nil

theorem eq_run_of_exec {i : Instr} {s t : State} (h : exec i s = .next t) : t = i.run s :=
  (Host.Outcome.next.inj ((exec_eq i s).symm.trans h)).symm

end Sys2Proof.Machine
end

section
/-! The encoding and the command port: the round trip of R90 to R99, and what a step does with what the host presents. -/

namespace Sys2Proof.Machine

/-- Settles O1: the word of a well-formed command has its fields, which is all that the decoder looks at. -/
theorem encodedCommandDecodesToItself : Obligations.EncodedCommandDecodesToItself := fun _ _ hwf hpayload =>
  decode_eq_ok_iff.2 ⟨fieldsOf_encode hwf, hpayload⟩

/-- Settles O2: a word that decodes to a command has the command's fields, and the fields determine the word. -/
theorem decodedWordIsTheEncoding : Obligations.DecodedWordIsTheEncoding := fun _ _ _ hdecode => by
  obtain ⟨hfields, hpayload⟩ := decode_eq_ok_iff.1 hdecode
  obtain ⟨hwf, hencode⟩ := encode_of_fields hfields
  exact ⟨hwf, hencode, hpayload⟩

/-- Settles O5: each word has the fields of its command; the refused ones fail at the clause that is named. -/
theorem sampleWordsDecode : Obligations.SampleWordsDecode :=
  ⟨rfl, rfl, rfl, rfl, rfl, rfl, rfl, rfl, rfl, rfl, rfl, rfl, rfl, rfl, rfl⟩

/-- Settles O6: the state that the port accepts the command in is the one of the statement. -/
theorem stepRunsTheDecodedCommand : Obligations.StepRunsTheDecodedCommand := fun _ _ _ _ _ _ hinput hdecode =>
  step_command hinput hdecode

theorem step_idle {s : State} (h : s.input = []) : step s = .next s := by
  simp [step, h]

theorem step_hardwareReset {s : State} {r : Option (Word × List Beat)} {rest : List HostInput}
    (h : s.input = .hardwareReset r :: rest) : step s = .next ({ s with input := rest }).hardwareReset := by
  simp [step, h]

/-- Settles O7: a step with an empty input answers the state itself. -/
theorem idleStepKeepsTheState : Obligations.IdleStepKeepsTheState := fun _ => step_idle

theorem step_undecoded {s : State} {w : Word} {p : List Beat} {b : Bool} {rest : List HostInput}
    (hinput : s.input = .command w p b :: rest) (hdecode : ∀ i, decode w p.length ≠ .ok i) :
    step s = .next (((Change.error (engineOf w) .illegalCmd).apply (s.accept p b rest)).respond (.error .illegalCmd)) := by
  obtain ⟨e, he⟩ := decode_error_of_not_ok hdecode
  rw [step_illegalCommand hinput he, illegalCommand, Change.error_apply]

/-- All that a step can do: nothing, a hardware reset, a command, or the refusal of an illegal one, which is an error
charged to the engine of bit 27 (R309). -/
inductive StepsTo (s : State) : State → Prop
  | idle (hinput : s.input = []) : StepsTo s s
  | hardwareReset {r : Option (Word × List Beat)} {rest : List HostInput} (hinput : s.input = .hardwareReset r :: rest) :
      StepsTo s ({ s with input := rest }).hardwareReset
  | command {w : Word} {p : List Beat} {b : Bool} {rest : List HostInput} {i : Instr}
      (hinput : s.input = .command w p b :: rest) (hdecode : decode w p.length = .ok i) :
      StepsTo s (i.run (s.accept p b rest))
  | illegal {w : Word} {p : List Beat} {b : Bool} {rest : List HostInput} (hinput : s.input = .command w p b :: rest)
      (hdecode : ∀ i, decode w p.length ≠ .ok i) :
      StepsTo s (((Change.error (engineOf w) .illegalCmd).apply (s.accept p b rest)).respond (.error .illegalCmd))

theorem exists_stepsTo (s : State) : ∃ t, step s = .next t ∧ StepsTo s t := by
  cases hs : s.input with
  | nil => exact ⟨_, step_idle hs, .idle hs⟩
  | cons head rest =>
    cases head with
    | hardwareReset r => exact ⟨_, step_hardwareReset hs, .hardwareReset hs⟩
    | command w p b =>
      cases hd : decode w p.length with
      | ok i => exact ⟨_, (step_command hs hd).trans (exec_eq i _), .command hs hd⟩
      | error e =>
        have hnot : ∀ i, decode w p.length ≠ .ok i := fun i hi => by cases hd.symm.trans hi
        exact ⟨_, step_undecoded hs hnot, .illegal hs hnot⟩

theorem stepsTo_of_step {s t : State} (h : step s = .next t) : StepsTo s t := by
  obtain ⟨t', ht', hst⟩ := exists_stepsTo s
  obtain rfl : t' = t := Host.Outcome.next.inj (ht'.symm.trans h)
  exact hst

/-- Settles O8: each of the four things that a step can do answers a next state. -/
theorem everyStepAnswersNext : Obligations.EveryStepAnswersNext := fun s => by
  obtain ⟨t, ht, -⟩ := exists_stepsTo s
  exact ⟨t, ht⟩

end Sys2Proof.Machine
end

section
/-! The reset values (R37, R341), and the RDSTAT commands that read a count (R262). -/

namespace Sys2Proof.Machine

theorem tableCheck_fixedTable : tableCheck fixedTable = true :=
  (tableCheck_iff_distinctInputs fixedTable).2 distinctInputs_fixedTable

theorem Engine.Inv.atReset {α : Type} [DecidableEq α] (d : Block α) (x : α) (n : Nat) : (Engine.atReset x).Inv d n where
  pt_wf := Memory.wf_nil
  pt_within := Memory.within_nil
  ptv_wf := Memory.wf_nil
  ptv_within := Memory.within_nil
  out_wf := Memory.wf_nil
  out_within := Memory.within_nil
  outn_le := Nat.zero_le n
  no_error := fun _ => rfl
  error_number := nofun

theorem BoolStore.Inv.atReset (n : Nat) : BoolStore.atReset.Inv n where
  cmlo_wf := Memory.wf_nil
  cmlo_within := Memory.within_nil
  cmhi_wf := Memory.wf_nil
  cmhi_within := Memory.within_nil
  cmlon_le := Nat.zero_le n
  cmhin_le := Nat.zero_le n

/-- Settles O10: empty storage is in canonical form, and the fixed table passes the check. -/
theorem resetMeetsTheInvariant : Obligations.ResetMeetsTheInvariant where
  storage :=
    { engine_a := .atReset ..
      engine_b := .atReset ..
      store_b := .atReset _
      tblok_eq := tableCheck_fixedTable.symm }
  payload_empty := rfl
  primfail_false := rfl

/-- Settles O11: the values stand in `State.reset`; the table is read pair by pair. -/
theorem resetStateHoldsTheResetValues : Obligations.ResetStateHoldsTheResetValues :=
  ⟨rfl, rfl, rfl, rfl, rfl, rfl, fun _ => ⟨rfl, rfl⟩, rfl, rfl, rfl, rfl, fun j => fixedTable_getElem j j.isLt, rfl⟩

/-- Settles O12: the new TBLOK is the result of the table check, whatever command was running. -/
theorem hardwareResetClearsBothEngines : Obligations.HardwareResetClearsBothEngines := fun s _ _ hinput =>
  ⟨tableCheck s.sbox, tableCheck_iff_distinctInputs s.sbox, step_hardwareReset hinput⟩

/-- A count that NBLK_MAX bounds fits in the word that RDSTAT returns. -/
theorem toNat_count {s : State} {n : Nat} (h : n ≤ s.cap.blocks) : (BitVec.ofNat 32 n).toNat = n := by
  have hcap := s.cap.le_max
  rw [BitVec.toNat_ofNat, Nat.mod_eq_of_lt (by omega)]

/-- Settles O50: no RDSTAT has a check or an effect, and each count is bounded by NBLK_MAX. -/
theorem readCountsReturnsTheCounts : Obligations.ReadCountsReturnsTheCounts := by
  refine ⟨rfl, rfl, rfl, rfl, rfl, rfl, fun s => ⟨_, _, _, _, _, ?_, ?_, ?_, ?_, ?_, ?_, toNat_count s.cap.blocks.le_refl,
    fun hinv => ⟨toNat_count hinv.engine_a.outn_le, toNat_count hinv.engine_b.outn_le, toNat_count hinv.store_b.cmlon_le,
      toNat_count hinv.store_b.cmhin_le⟩⟩⟩
  exacts [exec_eq .rdstatOutnA s, exec_eq .rdstatOutnB s, exec_eq .rdstatCmlonB s, exec_eq .rdstatCmhinB s,
    exec_eq .rdstatCapA s, exec_eq .rdstatCapB s]

end Sys2Proof.Machine
end

section
/-! What passing its checks tells of the state, rule by rule: the flags that are set and the operands that are in range. -/

namespace Sys2Proof.Machine

section Passing
variable {s : State} {n idx : Nat}

theorem inPlaceRefusal_eq_none_iff {α : Type} {e : Engine α} {badRound needRk needKonst needEk : Bool} :
    inPlaceRefusal s e badRound needRk needKonst needEk = none ↔
      s.tblok = true ∧ badRound = false ∧ e.stv = true ∧ (needRk = true → e.rkv = true) ∧
        (needKonst = true → s.bx.kv = true) ∧ (needEk = true → e.ekv = true) := by
  unfold inPlaceRefusal
  grind

theorem ctrRefusalA_eq_none_iff :
    ctrRefusalA s n = none ↔ s.tblok = true ∧ n ≤ s.cap.blocks ∧ s.a.ivv = true ∧ s.a.rkv = true ∧
      (∀ i < n, s.a.ptValid i = true) ∧ s.a.ekv = true := by
  unfold ctrRefusalA
  grind

theorem ctrRefusalB_eq_none_iff :
    ctrRefusalB s n = none ↔ s.tblok = true ∧ n ≤ s.cap.blocks ∧ n ≤ s.bx.cmlon ∧ n ≤ s.bx.cmhin ∧ s.b.ivv = true ∧
      s.b.rkv = true ∧ s.bx.kv = true ∧ (∀ i < n, s.b.ptValid i = true) ∧ s.b.ekv = true := by
  unfold ctrRefusalB
  grind

theorem stv_of_decryptRefusal {mode : DecryptMode} (h : decryptRefusal s mode idx = none) : s.b.stv = true := by
  unfold decryptRefusal at h
  grind

theorem rkv_of_loadScheduleRefusal {rkv : Bool} (h : loadScheduleRefusal s rkv = none) : rkv = false := by
  unfold loadScheduleRefusal at h
  grind

theorem lt_of_loadPtRefusal (h : loadPtRefusal s idx = none) : idx < s.cap.blocks := by
  unfold loadPtRefusal at h
  grind

theorem le_of_loadCounterRefusal (h : loadCounterRefusal s = none) : s.beats ≤ s.cap.blocks := by
  unfold loadCounterRefusal at h
  rw [State.beats]
  grind

theorem stv_of_storeStRefusal {stv : Bool} (h : storeStRefusal s stv = none) : stv = true := by
  unfold storeStRefusal at h
  grind

theorem lt_of_storeOutRefusal {outn : Nat} (h : storeOutRefusal s outn idx = none) : idx < outn := by
  unfold storeOutRefusal at h
  grind

end Passing

end Sys2Proof.Machine
end

section
/-! The invariant (R24 to R26, R28, R31): every kind of update keeps it as long as what is written lies within NBLK_MAX,
and the checks of a command see to that. -/

namespace Sys2Proof.Machine

/-- What the update writes lies below `n`. -/
def EngineUpdate.Fits {α : Type} (n : Nat) (u : EngineUpdate α) : Prop :=
  match u with
  | .loadPt idx _ => idx < n
  | .putOut blks => blks.length ≤ n
  | _ => True

/-- What the update writes lies below `n`. -/
def StoreUpdate.Fits (n : Nat) (u : StoreUpdate) : Prop :=
  match u with
  | .loadCmlo vs | .loadCmhi vs => vs.length ≤ n
  | _ => True

/-- What the change writes lies below `n`. -/
structure Change.Fits (n : Nat) (c : Change) : Prop where
  a : c.a.Fits n
  b : c.b.Fits n
  bx : c.bx.Fits n

theorem Engine.Inv.apply {α : Type} [DecidableEq α] {d : Block α} {n : Nat} {e : Engine α} (h : e.Inv d n)
    {u : EngineUpdate α} (hu : u.Fits n) : (u.apply d e).Inv d n := by
  cases u with
  | keep => exact h
  | error c => exact h.recordError c
  | failSt => exact h.dropSt.recordError .gateFail
  | failOut => exact h.dropOut.recordError .gateFail
  | putSt blk => exact h.putSt blk
  | loadSt blk => exact h.loadSt blk
  | loadIv blk => exact h.loadIv blk
  | loadRk sched => exact h.loadRk sched
  | loadPt idx blk => exact h.loadPt blk hu
  | putOut blks => exact h.putOut _ hu
  | attachEk => exact h.attachEk
  | reset => exact h.reset

theorem BoolStore.Inv.apply {n : Nat} {x : BoolStore} (h : x.Inv n) {u : StoreUpdate} (hu : u.Fits n) :
    (u.apply x).Inv n := by
  cases u with
  | keep => exact h
  | loadCmlo vs =>
    exact { h with
      cmlo_wf := Memory.fill_wf h.cmlo_wf _ _, cmlo_within := Memory.within_fill h.cmlo_within _ hu, cmlon_le := hu }
  | loadCmhi vs =>
    exact { h with
      cmhi_wf := Memory.fill_wf h.cmhi_wf _ _, cmhi_within := Memory.within_fill h.cmhi_within _ hu, cmhin_le := hu }
  | loadKonst kf kt => exact { h with }
  | attachSk => exact { h with }
  | reset => exact { h with cmlon_le := Nat.zero_le n, cmhin_le := Nat.zero_le n }

theorem State.StorageInv.apply {s : State} (h : s.StorageInv) {c : Change} (hc : c.Fits s.cap.blocks) :
    (c.apply s).StorageInv where
  engine_a := h.engine_a.apply hc.a
  engine_b := h.engine_b.apply hc.b
  store_b := h.store_b.apply hc.bx
  tblok_eq := by
    rw [Change.apply_tblok, Change.apply_sbox]
    split
    · rfl
    · exact h.tblok_eq

theorem State.StorageInv.respond {s : State} (h : s.StorageInv) (r : Response) : (s.respond r).StorageInv := { h with }

theorem State.StorageInv.accept {s : State} (h : s.StorageInv) (p : List Beat) (b : Bool) (rest : List HostInput) :
    (s.accept p b rest).StorageInv := { h with }

theorem State.StorageInv.hardwareReset {s : State} (h : s.StorageInv) : s.hardwareReset.StorageInv where
  engine_a := h.engine_a.reset
  engine_b := h.engine_b.reset
  store_b := h.store_b.apply (u := .reset) trivial
  tblok_eq := rfl

theorem Change.error_fits (n : Nat) (e : EngineId) (c : ErrCode) : (Change.error e c).Fits n := by
  cases e <;> exact ⟨trivial, trivial, trivial⟩

/-- A command that completes writes within NBLK_MAX: its operand is an index or a count that its checks have bounded. -/
theorem success_fits {i : Instr} {s : State} (h : i.refusal s = none) : (i.success s).Fits s.cap.blocks := by
  cases i
  case ldPtA idx => exact ⟨lt_of_loadPtRefusal h, trivial, trivial⟩
  case ldPtB idx => exact ⟨trivial, lt_of_loadPtRefusal h, trivial⟩
  case ctrA n =>
    obtain ⟨-, hn, -⟩ := ctrRefusalA_eq_none_iff.1 h
    exact ⟨by simpa [Instr.success, EngineUpdate.Fits] using hn, trivial, trivial⟩
  case ctrB n =>
    obtain ⟨-, hn, -⟩ := ctrRefusalB_eq_none_iff.1 h
    exact ⟨trivial, by simpa [Instr.success, EngineUpdate.Fits] using hn, trivial⟩
  case ldCmloB | ldCmhiB =>
    exact ⟨trivial, trivial, by simpa [Instr.success, StoreUpdate.Fits] using le_of_loadCounterRefusal h⟩
  all_goals exact ⟨trivial, trivial, trivial⟩

theorem change_fits (i : Instr) (s : State) : (i.change s).Fits s.cap.blocks :=
  i.change_of s (Change.error_fits _ _) (by cases i <;> exact ⟨trivial, trivial, trivial⟩) success_fits

/-- Settles O9: each of the four things a step can do keeps the storage invariant, and a response empties the port. -/
theorem stepKeepsTheInvariant : Obligations.StepKeepsTheInvariant := by
  intro s t hinv hstep
  cases stepsTo_of_step hstep with
  | idle hinput => exact hinv
  | hardwareReset hinput => exact ⟨{ hinv.storage.hardwareReset with }, rfl, rfl⟩
  | command hinput hdecode => exact ⟨((hinv.storage.accept _ _ _).apply (change_fits _ _)).respond _, rfl, rfl⟩
  | illegal hinput hdecode => exact ⟨((hinv.storage.accept _ _ _).apply (Change.error_fits _ _ _)).respond _, rfl, rfl⟩

/-- Settles O14: no kind of change names SBOX or NBLK_MAX. -/
theorem tableAndCapacityNeverChange : Obligations.TableAndCapacityNeverChange := by
  intro s t hstep
  cases stepsTo_of_step hstep with
  | idle hinput => exact ⟨rfl, rfl⟩
  | hardwareReset hinput => exact ⟨rfl, rfl⟩
  | command hinput hdecode => exact ⟨rfl, rfl⟩
  | illegal hinput hdecode => exact ⟨rfl, rfl⟩

end Sys2Proof.Machine
end

section
/-! What no command touches: the other engine (R20), the sticky pair once it is set (R31), loaded keys (R23, R29, R322),
and the storage that the access summary does not give it (R38, R60). -/

namespace Sys2Proof.Machine

/-! The kinds of update that occur. -/

/-- A command changes its own engine only, and only on engine B the store of engine B. -/
theorem change_of_engine (i : Instr) (s : State) :
    (i.engine = .B → (i.change s).a = .keep) ∧
      (i.engine = .A → (i.change s).b = .keep ∧ (i.change s).bx = .keep) := by
  refine i.change_of (P := fun c => (i.engine = .B → c.a = .keep) ∧ (i.engine = .A → c.b = .keep ∧ c.bx = .keep)) s
    (fun c => ?_) ?_ fun _ => ?_
  · cases i.engine <;> simp [Change.error]
  · cases i <;> simp [Instr.engine, Instr.failure]
  · cases i <;> simp [Instr.engine, Instr.success]

theorem change_a_ne_reset {i : Instr} (h : i ≠ .resetA) (s : State) : (i.change s).a ≠ .reset := by
  refine i.change_of (P := fun c => c.a ≠ .reset) s (fun c => ?_) ?_ fun _ => ?_
  · cases i.engine <;> nofun
  · cases i <;> nofun
  · cases i
    case resetA => exact absurd rfl h
    all_goals nofun

theorem change_b_ne_reset {i : Instr} (h : i ≠ .resetB) (s : State) :
    (i.change s).b ≠ .reset ∧ (i.change s).bx ≠ .reset := by
  refine i.change_of (P := fun c => c.b ≠ .reset ∧ c.bx ≠ .reset) s (fun c => ?_) ?_ fun _ => ?_
  · cases i.engine <;> exact ⟨nofun, nofun⟩
  · cases i <;> exact ⟨nofun, nofun⟩
  · cases i
    case resetB => exact absurd rfl h
    all_goals exact ⟨nofun, nofun⟩

/-- The check Immutable of R252: no command loads a schedule where one is loaded. -/
theorem change_a_ne_loadRk {s : State} (h : s.a.rkv = true) (i : Instr) (sched : Schedule CtA) :
    (i.change s).a ≠ .loadRk sched := by
  refine i.change_of (P := fun c => c.a ≠ .loadRk sched) s (fun c => ?_) ?_ fun hr => ?_
  · cases i.engine <;> nofun
  · cases i <;> nofun
  · cases i
    case ldRkA => exact absurd (rkv_of_loadScheduleRefusal hr) (by simp [h])
    all_goals nofun

theorem change_b_ne_loadRk {s : State} (h : s.b.rkv = true) (i : Instr) (sched : Schedule BvByte) :
    (i.change s).b ≠ .loadRk sched := by
  refine i.change_of (P := fun c => c.b ≠ .loadRk sched) s (fun c => ?_) ?_ fun hr => ?_
  · cases i.engine <;> nofun
  · cases i <;> nofun
  · cases i
    case ldRkB => exact absurd (rkv_of_loadScheduleRefusal hr) (by simp [h])
    all_goals nofun

/-! What an update leaves as it is. -/

section Updates
variable {α : Type} [DecidableEq α] {d : Block α} {e : Engine α} {u : EngineUpdate α}

/-- Only a reset clears the sticky pair (R31). -/
theorem EngineUpdate.apply_sticky (hu : u ≠ .reset) (he : e.err = true) :
    (u.apply d e).err = true ∧ (u.apply d e).errcode = e.errcode := by
  cases u with
  | reset => exact absurd rfl hu
  | _ => simp [EngineUpdate.apply, he]

theorem EngineUpdate.apply_schedule (hu : u ≠ .reset) (hload : ∀ sched, u ≠ .loadRk sched) :
    (u.apply d e).rkv = e.rkv ∧ (u.apply d e).rk = e.rk := by
  cases u with
  | reset => exact absurd rfl hu
  | loadRk sched => exact absurd rfl (hload sched)
  | _ => simp [EngineUpdate.apply]

theorem EngineUpdate.apply_ekv (hu : u ≠ .reset) (he : e.ekv = true) : (u.apply d e).ekv = true := by
  cases u with
  | reset => exact absurd rfl hu
  | _ => simp [EngineUpdate.apply, he]

theorem StoreUpdate.apply_skv {x : BoolStore} {u : StoreUpdate} (hu : u ≠ .reset) (hx : x.skv = true) :
    (u.apply x).skv = true := by
  cases u with
  | reset => exact absurd rfl hu
  | _ => simp [StoreUpdate.apply, hx]

end Updates

/-- RESET is no load, so its word decodes with an empty payload only. -/
theorem payload_nil_of_reset {w : Word} {p : List Beat} {i : Instr} (h : decode w p.length = .ok i)
    (hi : i = .resetA ∨ i = .resetB) : p = [] := by
  obtain ⟨-, hload | hlen⟩ := decode_eq_ok_iff.1 h
  · rcases hi with rfl | rfl <;> cases hload
  · exact List.length_eq_zero_iff.1 hlen

/-- Settles O17: a reset of the engine is the only update that clears the pair, and only the hardware reset and the
engine's own RESET bring one. -/
theorem stickyErrorIsKeptUntilReset : Obligations.StickyErrorIsKeptUntilReset := by
  intro s t hstep
  cases stepsTo_of_step hstep with
  | idle hinput => exact ⟨fun he => .inl ⟨he, rfl⟩, fun he => .inl ⟨he, rfl⟩⟩
  | hardwareReset hinput => exact ⟨fun _ => .inr (.inl ⟨_, _, hinput⟩), fun _ => .inr (.inl ⟨_, _, hinput⟩)⟩
  | @command w p b rest i hinput hdecode =>
    refine ⟨fun he => ?_, fun he => ?_⟩
    · by_cases hi : i = .resetA
      · obtain rfl := payload_nil_of_reset hdecode (.inl hi)
        exact .inr (.inr ⟨w, b, rest, hinput, hi ▸ hdecode⟩)
      · exact .inl (EngineUpdate.apply_sticky (change_a_ne_reset hi _) he)
    · by_cases hi : i = .resetB
      · obtain rfl := payload_nil_of_reset hdecode (.inr hi)
        exact .inr (.inr ⟨w, b, rest, hinput, hi ▸ hdecode⟩)
      · exact .inl (EngineUpdate.apply_sticky (change_b_ne_reset hi _).1 he)
  | @illegal w p b rest hinput hdecode =>
    have hneA : (Change.error (engineOf w) .illegalCmd).a ≠ .reset := by cases engineOf w <;> nofun
    have hneB : (Change.error (engineOf w) .illegalCmd).b ≠ .reset := by cases engineOf w <;> nofun
    exact ⟨fun he => .inl (EngineUpdate.apply_sticky hneA he), fun he => .inl (EngineUpdate.apply_sticky hneB he)⟩

/-- Settles O19: the updates that would change a schedule or clear a key are a reset, which only RESET brings, and a load
of the schedule, which is refused where one is loaded. -/
theorem keyMaterialIsImmutableUntilReset : Obligations.KeyMaterialIsImmutableUntilReset := by
  intro i s t hexec
  obtain rfl := eq_run_of_exec hexec
  refine ⟨fun hrk hi => ?_, fun hrk hi => ?_, fun hek hi => ?_, fun hek hi => ?_, fun hsk hi => ?_⟩
  · obtain ⟨hrkv, hsched⟩ := EngineUpdate.apply_schedule (d := blankBlockA) (e := s.a) (change_a_ne_reset hi s)
      (change_a_ne_loadRk hrk i)
    exact ⟨hrkv.trans hrk, hsched⟩
  · obtain ⟨hrkv, hsched⟩ := EngineUpdate.apply_schedule (d := blankBlockB) (e := s.b) (change_b_ne_reset hi s).1
      (change_b_ne_loadRk hrk i)
    exact ⟨hrkv.trans hrk, hsched⟩
  · exact EngineUpdate.apply_ekv (change_a_ne_reset hi s) hek
  · exact EngineUpdate.apply_ekv (change_b_ne_reset hi s).1 hek
  · exact StoreUpdate.apply_skv (change_b_ne_reset hi s).2 hsk

/-! Storage (R38, R60). -/

/-- The storage spaces that an update writes. -/
def EngineUpdate.writes {α : Type} (u : EngineUpdate α) : List Space :=
  match u with
  | .putSt _ | .loadSt _ => [.st]
  | .loadIv _ => [.iv]
  | .loadRk _ => [.rk]
  | .loadPt _ _ => [.pt]
  | .putOut _ => [.out]
  | _ => []

/-- The storage spaces that an update of engine B's own store writes. -/
def StoreUpdate.writes (u : StoreUpdate) : List Space :=
  match u with
  | .loadCmlo _ => [.cmlo]
  | .loadCmhi _ => [.cmhi]
  | .loadKonst _ _ => [.konst]
  | _ => []

/-- What a command writes is what the access summary gives it (R38). -/
theorem change_writes (i : Instr) (s : State) :
    (i.change s).a.writes ⊆ i.writes ∧ (i.change s).b.writes ⊆ i.writes ∧ (i.change s).bx.writes ⊆ i.writes := by
  refine i.change_of (P := fun c => c.a.writes ⊆ i.writes ∧ c.b.writes ⊆ i.writes ∧ c.bx.writes ⊆ i.writes) s
    (fun c => ?_) ?_ fun _ => ?_
  · cases i.engine <;> simp [Change.error, EngineUpdate.writes, StoreUpdate.writes]
  · cases i <;> simp [Instr.failure, EngineUpdate.writes, StoreUpdate.writes]
  · cases i <;> simp [Instr.success, Instr.writes, EngineUpdate.writes, StoreUpdate.writes]

section Contents
variable {α : Type} [DecidableEq α] (d : Block α) (n : Nat) (e : Engine α)

/-- `MemRead(space, i)` of the spaces that both engines have (R60). -/
def Engine.memRead (sp : Space) (i : Nat) : Option α :=
  match sp with
  | .st => e.st[i]?
  | .iv => e.iv[i]?
  | .rk => e.rk[i]?
  | .pt => blockSlot n (Memory.read d e.pt) i
  | .out => blockSlot n (Memory.read d e.out) i
  | .cmlo | .cmhi | .konst => none

/-- An update leaves the contents of the spaces that it does not write. -/
theorem EngineUpdate.apply_contents (u : EngineUpdate α) :
    (.st ∉ u.writes → (u.apply d e).st = e.st) ∧ (.iv ∉ u.writes → (u.apply d e).iv = e.iv) ∧
      (.rk ∉ u.writes → (u.apply d e).rk = e.rk) ∧ (.pt ∉ u.writes → (u.apply d e).pt = e.pt) ∧
      (.out ∉ u.writes → (u.apply d e).out = e.out) := by
  cases u <;> simp [EngineUpdate.apply, EngineUpdate.writes]

theorem EngineUpdate.memRead_apply {u : EngineUpdate α} {sp : Space} (h : sp ∉ u.writes) (i : Nat) :
    (u.apply d e).memRead d n sp i = e.memRead d n sp i := by
  obtain ⟨hst, hiv, hrk, hpt, hout⟩ := u.apply_contents d e
  cases sp with
  | st => simp only [Engine.memRead, hst h]
  | iv => simp only [Engine.memRead, hiv h]
  | rk => simp only [Engine.memRead, hrk h]
  | pt => simp only [Engine.memRead, hpt h]
  | out => simp only [Engine.memRead, hout h]
  | cmlo | cmhi | konst => rfl

end Contents

theorem StoreUpdate.apply_contents (u : StoreUpdate) (x : BoolStore) :
    (.cmlo ∉ u.writes → (u.apply x).cmlo = x.cmlo) ∧ (.cmhi ∉ u.writes → (u.apply x).cmhi = x.cmhi) ∧
      (.konst ∉ u.writes → (u.apply x).kf = x.kf ∧ (u.apply x).kt = x.kt) := by
  cases u <;> simp [StoreUpdate.apply, StoreUpdate.writes]

section MemRead
variable (s : State) (i : Nat)

theorem State.memReadA_eq (sp : Space) : s.memReadA sp i = s.a.memRead blankBlockA s.cap.blocks sp i := by
  cases sp <;> rfl

/-- A slot of engine B is one of the spaces that both engines have, or of the two counter lists. -/
theorem State.memReadB_congr {s t : State} {sp : Space} {i : Nat} (hcap : t.cap = s.cap)
    (hb : t.b.memRead blankBlockB s.cap.blocks sp i = s.b.memRead blankBlockB s.cap.blocks sp i)
    (hlo : sp = .cmlo → t.bx.cmlo = s.bx.cmlo) (hhi : sp = .cmhi → t.bx.cmhi = s.bx.cmhi) :
    t.memReadB sp i = s.memReadB sp i := by
  cases sp with
  | st | iv | rk => exact hb
  | pt | out =>
    rw [State.memReadB, hcap]
    exact hb
  | cmlo => rw [State.memReadB, State.memReadB, State.cmlo, State.cmlo, hcap, hlo rfl]
  | cmhi => rw [State.memReadB, State.memReadB, State.cmhi, State.cmhi, hcap, hhi rfl]
  | konst => rfl

theorem State.memReadKonst_congr {s t : State} (hkf : t.bx.kf = s.bx.kf) (hkt : t.bx.kt = s.bx.kt) (i : Nat) :
    t.memReadKonst i = s.memReadKonst i := by
  unfold State.memReadKonst
  rw [hkf, hkt]

end MemRead

/-- Settles O23: the updates of the other engine keep it, and those of the command's own engine write what the summary
says. -/
theorem storageIsWrittenOnlyByItsCommands : Obligations.StorageIsWrittenOnlyByItsCommands := by
  intro i s t hexec
  obtain rfl := eq_run_of_exec hexec
  obtain ⟨hkeepA, hkeepB⟩ := change_of_engine i s
  obtain ⟨hwritesA, hwritesB, hwritesBx⟩ := change_writes i s
  obtain ⟨hlo, hhi, hkonst⟩ := (i.change s).bx.apply_contents s.bx
  refine ⟨fun sp slot h => ?_, fun sp slot h => ?_, fun slot h => ?_⟩
  · have hsp : sp ∉ (i.change s).a.writes := h.elim
      (fun hi => by rw [hkeepA hi]; exact List.not_mem_nil) fun hi hmem => hi (hwritesA hmem)
    rw [State.memReadA_eq, State.memReadA_eq]
    exact EngineUpdate.memRead_apply _ _ _ hsp slot
  · have hsp : sp ∉ (i.change s).b.writes ∧ sp ∉ (i.change s).bx.writes := h.elim
      (fun hi => by rw [(hkeepB hi).1, (hkeepB hi).2]; exact ⟨List.not_mem_nil, List.not_mem_nil⟩)
      fun hi => ⟨fun hmem => hi (hwritesB hmem), fun hmem => hi (hwritesBx hmem)⟩
    obtain ⟨hspB, hspBx⟩ := hsp
    exact State.memReadB_congr rfl (EngineUpdate.memRead_apply _ _ _ hspB slot) (fun h => hlo (h ▸ hspBx))
      fun h => hhi (h ▸ hspBx)
  · obtain ⟨hkf, hkt⟩ := hkonst fun hmem => h (hwritesBx hmem)
    exact State.memReadKonst_congr hkf hkt slot

end Sys2Proof.Machine
end

section
/-! The responses of the commands: which errors a command raises (R302 to R312, R321, R322), what stops every command
(R302), what PRIMFAIL reaches (R320), and who returns a byte (R6). -/

namespace Sys2Proof.Machine

section Errors
variable {s : State} {c : ErrCode} {n idx : Nat}

/-! The errors among which each rule chooses. -/

theorem inPlaceRefusal_mem {α : Type} {e : Engine α} {badRound needRk needKonst needEk : Bool}
    (h : inPlaceRefusal s e badRound needRk needKonst needEk = some c) :
    c = .tableMalformed ∨ badRound = true ∧ c = .roundRange ∨ c = .notLoaded ∨ needEk = true ∧ c = .noEvalKey := by
  unfold inPlaceRefusal at h
  grind

theorem ctrRefusalA_mem (h : ctrRefusalA s n = some c) :
    c ∈ [ErrCode.tableMalformed, .indexRange, .notLoaded, .noEvalKey] := by
  unfold ctrRefusalA at h
  grind

theorem ctrRefusalB_mem (h : ctrRefusalB s n = some c) :
    c ∈ [ErrCode.tableMalformed, .indexRange, .sizeList, .notLoaded, .noEvalKey] := by
  unfold ctrRefusalB at h
  grind

theorem decryptRefusal_mem {mode : DecryptMode} (h : decryptRefusal s mode idx = some c) :
    c = .tableMalformed ∨ c = .indexRange ∨ c = .notLoaded ∨ mode = .secretKey ∧ c = .noSecretKey ∨
      mode = .trivial ∧ c = .decryptMismatch := by
  have hmem := firstError_mem ((firstError_eq_decryptRefusal s mode idx).trans h)
  simp only [List.mem_cons, Prod.mk.injEq, List.not_mem_nil, Bool.true_eq, Bool.and_eq_true, decide_eq_true_eq] at hmem
  tauto

theorem loadBlockRefusal_mem (h : loadBlockRefusal s = some c) : c ∈ [ErrCode.tableMalformed, .sizeBlock] := by
  unfold loadBlockRefusal at h
  grind

theorem loadScheduleRefusal_mem {rkv : Bool} (h : loadScheduleRefusal s rkv = some c) :
    c ∈ [ErrCode.tableMalformed, .sizeSchedule, .immutable] := by
  unfold loadScheduleRefusal at h
  grind

theorem loadPtRefusal_mem (h : loadPtRefusal s idx = some c) :
    c ∈ [ErrCode.tableMalformed, .indexRange, .sizeBlock] := by
  unfold loadPtRefusal at h
  grind

theorem loadCounterRefusal_mem (h : loadCounterRefusal s = some c) : c ∈ [ErrCode.tableMalformed, .sizeList] := by
  unfold loadCounterRefusal at h
  grind

theorem loadKonstRefusal_mem (h : loadKonstRefusal s = some c) : c ∈ [ErrCode.tableMalformed, .sizeList] := by
  unfold loadKonstRefusal at h
  grind

theorem storeStRefusal_mem {stv : Bool} (h : storeStRefusal s stv = some c) :
    c ∈ [ErrCode.tableMalformed, .notLoaded] := by
  unfold storeStRefusal at h
  grind

theorem storeOutRefusal_mem {outn : Nat} (h : storeOutRefusal s outn idx = some c) :
    c ∈ [ErrCode.tableMalformed, .indexRange, .notLoaded] := by
  unfold storeOutRefusal at h
  grind

theorem setkeyRefusal_mem {attached : Bool} (h : setkeyRefusal s attached = some c) :
    c ∈ [ErrCode.tableMalformed, .immutable] := by
  unfold setkeyRefusal at h
  grind

/-- The error of a failing check is in the list of the command. -/
theorem refusal_mem_errors {i : Instr} (h : i.refusal s = some c) : c ∈ i.errors := by
  cases i
  case addrkA | addrkB | subbA | subbB | shrowA | shrowB | mixcA | mixcB | encblkA | encblkB =>
    obtain rfl | ⟨hround, rfl⟩ | rfl | ⟨hek, rfl⟩ := inPlaceRefusal_mem h <;> simp_all [Instr.errors]
  case ctrA n =>
    have hmem := ctrRefusalA_mem h
    simp only [Instr.errors, List.mem_cons] at hmem ⊢
    tauto
  case ctrB n =>
    have hmem := ctrRefusalB_mem h
    simp only [Instr.errors, List.mem_cons] at hmem ⊢
    tauto
  case decryptB mode idx =>
    have hmem := decryptRefusal_mem h
    cases mode <;> simpa [Instr.errors] using hmem
  case ldStA | ldStB | ldIvA | ldIvB => exact loadBlockRefusal_mem h
  case ldRkA | ldRkB => exact loadScheduleRefusal_mem h
  case ldPtA idx | ldPtB idx => exact loadPtRefusal_mem h
  case ldCmloB | ldCmhiB => exact loadCounterRefusal_mem h
  case ldKonstB => exact loadKonstRefusal_mem h
  case stStA | stStB => exact storeStRefusal_mem h
  case stOutA idx | stOutB idx => exact storeOutRefusal_mem h
  case setkeyEkA | setkeyEkB | setkeySkB => exact setkeyRefusal_mem h
  all_goals cases h

end Errors

/-- A command with a primitive to evaluate may raise GateFail (R307). -/
theorem gateFail_mem_errors {i : Instr} (h : i.works = true) : .gateFail ∈ i.errors := by
  cases i
  case addrkA | addrkB | subbA | subbB | mixcA | mixcB | encblkA | encblkB | ctrA | ctrB => simp [Instr.errors]
  all_goals cases h

/-- Settles O24: an error is that of a failing check or GateFail. -/
theorem commandsRaiseOnlyTheirErrors : Obligations.CommandsRaiseOnlyTheirErrors := by
  intro i s t c hexec hresp
  obtain rfl := eq_run_of_exec hexec
  rw [Instr.run_response] at hresp
  obtain ⟨c', hr, -, hc⟩ | ⟨-, hw, -, -, hc⟩ | ⟨-, -, -, hc⟩ := i.change_cases s
  · rw [hc] at hresp
    cases hresp
    exact refusal_mem_errors hr
  · rw [hc] at hresp
    cases hresp
    exact gateFail_mem_errors hw
  · rw [hc] at hresp
    cases hresp

/-- A byte is the data of DECRYPT.B only. -/
theorem eq_decryptB_of_data {i : Instr} {s : State} {v : Byte} (h : i.data s = .byte v) :
    ∃ mode idx, i = .decryptB mode idx := by
  cases i
  case decryptB mode idx => exact ⟨mode, idx, rfl⟩
  all_goals cases h

/-- Settles O20: an OK response carries the data of the command. -/
theorem onlyDecryptReturnsACleartextByte : Obligations.OnlyDecryptReturnsACleartextByte := by
  intro i s t v hexec hresp
  obtain rfl := eq_run_of_exec hexec
  rw [Instr.run_response] at hresp
  obtain ⟨c, -, -, hc⟩ | ⟨-, -, -, -, hc⟩ | ⟨-, -, -, hc⟩ := i.change_cases s <;> rw [hc] at hresp
  · cases hresp
  · cases hresp
  · exact eq_decryptB_of_data (Response.ok.inj (Option.some.inj hresp))

/-! A malformed table. -/

/-- The table check is the first check of every command that has checks. -/
theorem refusal_of_malformed {i : Instr} {s : State} (h : s.tblok = false) (hi : ¬ i.ignoresTable) :
    i.refusal s = some .tableMalformed := by
  cases i
  case rdstatStatusA | rdstatStatusB | rdstatOutnA | rdstatOutnB | rdstatCmlonB | rdstatCmhinB | rdstatCapA | rdstatCapB
      | resetA | resetB => exact absurd (by simp [Instr.ignoresTable]) hi
  all_goals exact if_pos h

theorem run_of_refusal {i : Instr} {s : State} {c : ErrCode} (h : i.refusal s = some c) : i.run s = s.erred i.engine c := by
  obtain ⟨c', hr, hchange, hresp⟩ | ⟨hr, -⟩ | ⟨hr, -⟩ := i.change_cases s <;> cases hr.symm.trans h
  rw [Instr.run, hchange, hresp, Change.error_apply, State.raise_eq_erred]

/-- Settles O25: the check of TBLOK is the first of every rule that has checks. -/
theorem malformedTableStopsEveryCommand : Obligations.MalformedTableStopsEveryCommand :=
  ⟨fun i s h hi => (exec_eq i s).trans (congrArg _ (run_of_refusal (refusal_of_malformed h hi))),
    tableCheck_iff_distinctInputs, tableCheck_fixedTable⟩

/-! PRIMFAIL. -/

theorem works_eq_false {i : Instr} (h : ¬ i.evaluates) : i.works = false := by
  cases i
  case addrkA | addrkB | subbA | subbB | mixcA | mixcB | encblkA | encblkB =>
    exact absurd (by simp [Instr.evaluates]) h
  case ctrA n | ctrB n => simpa [Instr.evaluates, Instr.works] using h
  all_goals rfl

/-- Neither the checks of a command nor its effect look at PRIMFAIL. -/
theorem reads_not_primfail (i : Instr) (s : State) (b : Bool) :
    i.refusal { s with primfail := b } = i.refusal s ∧ i.success { s with primfail := b } = i.success s ∧
      i.data { s with primfail := b } = i.data s := by
  cases i <;> exact ⟨rfl, rfl, rfl⟩

/-- Settles O26: PRIMFAIL matters only between the checks and the effect of a command that evaluates something. -/
theorem commandsWithoutEvaluationsIgnorePrimfail : Obligations.CommandsWithoutEvaluationsIgnorePrimfail := by
  intro i s b hi
  obtain ⟨hrefusal, hsuccess, hdata⟩ := reads_not_primfail i s b
  have hworks := works_eq_false hi
  have hchange : i.change { s with primfail := b } = i.change s := by
    simp [Instr.change, hrefusal, hsuccess, hworks]
  have hresponse : i.response { s with primfail := b } = i.response s := by
    simp [Instr.response, hrefusal, hdata, hworks]
  rw [exec_eq, exec_eq, Instr.run, Instr.run, hchange, hresponse]
  rfl

end Sys2Proof.Machine
end

section
/-! When two states give a command the same checks, and with them the same way to end: the checks read flags and counts,
and in DECRYPT.B mode 1 whether ciphertexts are trivial. -/

namespace Sys2Proof.Machine

/-- The flags and counts of an engine that checks read agree. -/
structure Engine.SameFlags {α : Type} (e e' : Engine α) : Prop where
  stv : e.stv = e'.stv
  ivv : e.ivv = e'.ivv
  rkv : e.rkv = e'.rkv
  ptv : e.ptv = e'.ptv
  outn : e.outn = e'.outn
  ekv : e.ekv = e'.ekv

/-- The flags and counts of engine B's own store agree. -/
structure BoolStore.SameFlags (x x' : BoolStore) : Prop where
  cmlon : x.cmlon = x'.cmlon
  cmhin : x.cmhin = x'.cmhin
  kv : x.kv = x'.kv
  skv : x.skv = x'.skv

/-- All that the checks of a command read agrees: the flags of its engine, and for DECRYPT.B mode 1 the block as well. -/
structure SameChecks (i : Instr) (s s' : State) : Prop where
  tblok : s.tblok = s'.tblok
  cap : s.cap = s'.cap
  beats : s.payload.length = s'.payload.length
  engine_a : i.engine = .A → s.a.SameFlags s'.a
  engine_b : i.engine = .B → s.b.SameFlags s'.b
  store_b : i.engine = .B → s.bx.SameFlags s'.bx
  byte : ∀ idx, i = .decryptB .trivial idx → s.b.stv = true → s.b.st = s'.b.st

theorem inPlaceRefusal_congr {α : Type} {s s' : State} {e e' : Engine α} (htblok : s.tblok = s'.tblok)
    (h : e.SameFlags e') {badRound needRk needKonst needEk : Bool} (hkv : needKonst = true → s.bx.kv = s'.bx.kv) :
    inPlaceRefusal s e badRound needRk needKonst needEk = inPlaceRefusal s' e' badRound needRk needKonst needEk := by
  have hkonst : (needKonst = true ∧ s.bx.kv = false) = (needKonst = true ∧ s'.bx.kv = false) :=
    propext (and_congr_right fun hneed => by rw [hkv hneed])
  simp only [inPlaceRefusal, htblok, h.stv, h.rkv, h.ekv, hkonst]

theorem Engine.SameFlags.ptValid {α : Type} {e e' : Engine α} (h : e.SameFlags e') (i : Nat) :
    e.ptValid i = e'.ptValid i := by
  rw [Engine.ptValid, Engine.ptValid, h.ptv]

/-- Past the check of STV both states show DECRYPT.B mode 1 the same byte. -/
theorem decryptRefusal_congr {s s' : State} {mode : DecryptMode} {idx : Nat} (htblok : s.tblok = s'.tblok)
    (hstv : s.b.stv = s'.b.stv) (hskv : s.bx.skv = s'.bx.skv)
    (hst : mode = .trivial → s.b.stv = true → s.b.st = s'.b.st) :
    decryptRefusal s mode idx = decryptRefusal s' mode idx := by
  cases hv : s.b.stv with
  | false => simp only [decryptRefusal, htblok, ← hstv, hv, if_true]
  | true =>
    have hbyte : (mode = .trivial ∧ ∃ k : Fin 8, ((s.b.st[Fin.ofNat 16 idx])[k]).triv = false) =
        (mode = .trivial ∧ ∃ k : Fin 8, ((s'.b.st[Fin.ofNat 16 idx])[k]).triv = false) :=
      propext (and_congr_right fun hmode => by rw [hst hmode hv])
    simp only [decryptRefusal, htblok, ← hstv, hskv, hbyte]

/-- The checks of every command read no more than `SameChecks` says. -/
theorem refusal_congr {i : Instr} {s s' : State} (h : SameChecks i s s') : i.refusal s = i.refusal s' := by
  obtain ⟨htblok, hcap, hbeats, hA, hB, hBx, hbyte⟩ := h
  cases i
  case addrkA | subbA | shrowA | mixcA | encblkA => exact inPlaceRefusal_congr htblok (hA rfl) nofun
  case addrkB | subbB | shrowB => exact inPlaceRefusal_congr htblok (hB rfl) nofun
  case mixcB | encblkB => exact inPlaceRefusal_congr htblok (hB rfl) fun _ => (hBx rfl).kv
  case ctrA n =>
    simp only [Instr.refusal, ctrRefusalA, htblok, hcap, (hA rfl).ivv, (hA rfl).rkv, (hA rfl).ekv, (hA rfl).ptValid]
  case ctrB n =>
    simp only [Instr.refusal, ctrRefusalB, htblok, hcap, (hB rfl).ivv, (hB rfl).rkv, (hB rfl).ekv, (hB rfl).ptValid,
      (hBx rfl).cmlon, (hBx rfl).cmhin, (hBx rfl).kv]
  case decryptB mode idx =>
    exact decryptRefusal_congr htblok (hB rfl).stv (hBx rfl).skv fun hmode => hbyte idx (hmode ▸ rfl)
  case ldStA | ldStB | ldIvA | ldIvB => simp only [Instr.refusal, loadBlockRefusal, htblok, hbeats]
  case ldRkA => simp only [Instr.refusal, loadScheduleRefusal, htblok, hbeats, (hA rfl).rkv]
  case ldRkB => simp only [Instr.refusal, loadScheduleRefusal, htblok, hbeats, (hB rfl).rkv]
  case ldPtA | ldPtB => simp only [Instr.refusal, loadPtRefusal, htblok, hcap, hbeats]
  case ldCmloB | ldCmhiB => simp only [Instr.refusal, loadCounterRefusal, htblok, hcap, hbeats]
  case ldKonstB => simp only [Instr.refusal, loadKonstRefusal, htblok, hbeats]
  case stStA => simp only [Instr.refusal, storeStRefusal, htblok, (hA rfl).stv]
  case stStB => simp only [Instr.refusal, storeStRefusal, htblok, (hB rfl).stv]
  case stOutA idx => simp only [Instr.refusal, storeOutRefusal, htblok, hcap, (hA rfl).outn]
  case stOutB idx => simp only [Instr.refusal, storeOutRefusal, htblok, hcap, (hB rfl).outn]
  case setkeyEkA => simp only [Instr.refusal, setkeyRefusal, htblok, (hA rfl).ekv]
  case setkeyEkB => simp only [Instr.refusal, setkeyRefusal, htblok, (hB rfl).ekv]
  case setkeySkB => simp only [Instr.refusal, setkeyRefusal, htblok, (hBx rfl).skv]
  all_goals rfl

/-- A command does the same at two states where its checks, PRIMFAIL and its completion are the same. -/
theorem change_congr {i : Instr} {s s' : State} (hrefusal : i.refusal s = i.refusal s')
    (hprimfail : s.primfail = s'.primfail) (hsuccess : i.refusal s = none → i.success s = i.success s') :
    i.change s = i.change s' := by
  unfold Instr.change
  rw [← hrefusal, ← hprimfail]
  cases hr : i.refusal s with
  | some c => rfl
  | none => simp only [hsuccess hr]

/-- A command responds the same at two states where its checks, PRIMFAIL and its data are the same. -/
theorem response_congr {i : Instr} {s s' : State} (hrefusal : i.refusal s = i.refusal s')
    (hprimfail : s.primfail = s'.primfail) (hdata : i.refusal s = none → i.data s = i.data s') :
    i.response s = i.response s' := by
  unfold Instr.response
  rw [← hrefusal, ← hprimfail]
  cases hr : i.refusal s with
  | some c => rfl
  | none => simp only [hdata hr]

end Sys2Proof.Machine
end

section
/-! The engines do not interfere (R20), and the sticky flags influence no result (R30): in both cases a command reads only
a part of the state. -/

namespace Sys2Proof.Machine

/-- What a command of engine A may read: the rest of the state replaced by fixed values. -/
def State.viewA (s : State) : State :=
  { s with b := Engine.atReset BvByte.blank, bx := BoolStore.atReset, input := [], response := none }

/-- What a command of engine B may read: the rest of the state replaced by fixed values. -/
def State.viewB (s : State) : State := { s with a := Engine.atReset CtA.blank, input := [], response := none }

theorem State.sameForA.viewA_eq {s s' : State} (h : s.sameForA s') : s.viewA = s'.viewA := by
  obtain ⟨ha, hsbox, htblok, hcap, hpayload, hprimfail, hfresh⟩ := h
  simp only [State.viewA, ha, hsbox, htblok, hcap, hpayload, hprimfail, hfresh]

theorem State.sameForB.viewB_eq {s s' : State} (h : s.sameForB s') : s.viewB = s'.viewB := by
  obtain ⟨hb, hbx, hsbox, htblok, hcap, hpayload, hprimfail, hfresh⟩ := h
  simp only [State.viewB, hb, hbx, hsbox, htblok, hcap, hpayload, hprimfail, hfresh]

/-- Effect and data of a command of engine A come from the view. -/
theorem success_viewA {i : Instr} (hi : i.engine = .A) (s : State) :
    i.success s.viewA = i.success s ∧ i.data s.viewA = i.data s := by
  cases i
  case addrkA | subbA | shrowA | mixcA | encblkA | ctrA | ldStA | ldIvA | ldRkA | ldPtA | stStA | stOutA | setkeyEkA
      | rdstatStatusA | rdstatOutnA | rdstatCapA | resetA => exact ⟨rfl, rfl⟩
  all_goals cases hi

/-- Effect and data of a command of engine B come from the view. -/
theorem success_viewB {i : Instr} (hi : i.engine = .B) (s : State) :
    i.success s.viewB = i.success s ∧ i.data s.viewB = i.data s := by
  cases i
  case addrkA | subbA | shrowA | mixcA | encblkA | ctrA | ldStA | ldIvA | ldRkA | ldPtA | stStA | stOutA | setkeyEkA
      | rdstatStatusA | rdstatOutnA | rdstatCapA | resetA => cases hi
  all_goals exact ⟨rfl, rfl⟩

theorem Engine.SameFlags.of_eq {α : Type} {e e' : Engine α} (h : e = e') : e.SameFlags e' := by
  subst h
  exact ⟨rfl, rfl, rfl, rfl, rfl, rfl⟩

theorem BoolStore.SameFlags.of_eq {x x' : BoolStore} (h : x = x') : x.SameFlags x' := by
  subst h
  exact ⟨rfl, rfl, rfl, rfl⟩

/-- A command of engine A does and responds the same whatever the rest of the state is. -/
theorem change_eq_of_sameForA {i : Instr} {s s' : State} (hi : i.engine = .A) (h : s.sameForA s') :
    i.change s = i.change s' ∧ i.response s = i.response s' := by
  have hview := h.viewA_eq
  obtain ⟨hsuccess, hdata⟩ := success_viewA hi s
  obtain ⟨hsuccess', hdata'⟩ := success_viewA hi s'
  obtain ⟨ha, hsbox, htblok, hcap, hpayload, hprimfail, hfresh⟩ := h
  have hrefusal : i.refusal s = i.refusal s' := refusal_congr
    { tblok := htblok, cap := hcap, beats := congrArg _ hpayload, engine_a := fun _ => .of_eq ha
      engine_b := fun hB => by cases hi.symm.trans hB
      store_b := fun hB => by cases hi.symm.trans hB
      byte := fun idx h => by cases h; cases hi }
  exact ⟨change_congr hrefusal hprimfail fun _ => hsuccess.symm.trans (hview ▸ hsuccess'),
    response_congr hrefusal hprimfail fun _ => hdata.symm.trans (hview ▸ hdata')⟩

/-- A command of engine B does and responds the same whatever the rest of the state is. -/
theorem change_eq_of_sameForB {i : Instr} {s s' : State} (hi : i.engine = .B) (h : s.sameForB s') :
    i.change s = i.change s' ∧ i.response s = i.response s' := by
  have hview := h.viewB_eq
  obtain ⟨hsuccess, hdata⟩ := success_viewB hi s
  obtain ⟨hsuccess', hdata'⟩ := success_viewB hi s'
  obtain ⟨hb, hbx, hsbox, htblok, hcap, hpayload, hprimfail, hfresh⟩ := h
  have hrefusal : i.refusal s = i.refusal s' := refusal_congr
    { tblok := htblok, cap := hcap, beats := congrArg _ hpayload
      engine_a := fun hA => by cases hi.symm.trans hA
      engine_b := fun _ => .of_eq hb
      store_b := fun _ => .of_eq hbx
      byte := fun _ _ _ => congrArg _ hb }
  exact ⟨change_congr hrefusal hprimfail fun _ => hsuccess.symm.trans (hview ▸ hsuccess'),
    response_congr hrefusal hprimfail fun _ => hdata.symm.trans (hview ▸ hdata')⟩

/-- The shared part after one change of two states that agree in it. -/
theorem Change.apply_shared {s s' : State} (c : Change) (hsbox : s.sbox = s'.sbox) (htblok : s.tblok = s'.tblok)
    (hfresh : s.fresh = s'.fresh) :
    (c.apply s).tblok = (c.apply s').tblok ∧ (c.apply s).fresh = (c.apply s').fresh := by
  simp only [Change.apply_tblok, Change.apply_fresh, hsbox, htblok, hfresh, and_self]

/-- Settles O15: a command updates its own engine, by an update that comes from the view of the engine. -/
theorem enginesDoNotInterfere : Obligations.EnginesDoNotInterfere := by
  refine ⟨fun i s t hexec => ?_, fun i s s' t t' hi h hexec hexec' => ?_, fun i s s' t t' hi h hexec hexec' => ?_⟩
  · obtain rfl := eq_run_of_exec hexec
    obtain ⟨hkeepA, hkeepB⟩ := change_of_engine i s
    refine ⟨fun hi => ?_, fun hi => ?_⟩
    · obtain ⟨hb, hbx⟩ := hkeepB hi
      rw [Instr.run_b, Instr.run_bx, hb, hbx]
      exact ⟨rfl, rfl⟩
    · rw [Instr.run_a, hkeepA hi]
      rfl
  · obtain rfl := eq_run_of_exec hexec
    obtain rfl := eq_run_of_exec hexec'
    obtain ⟨hchange, hresponse⟩ := change_eq_of_sameForA hi h
    obtain ⟨ha, hsbox, htblok, hcap, -, -, hfresh⟩ := h
    obtain ⟨htblok', hfresh'⟩ := (i.change s').apply_shared hsbox htblok hfresh
    rw [Instr.run, Instr.run, hchange, hresponse]
    exact ⟨⟨congrArg ((i.change s').a.apply blankBlockA) ha, hsbox, htblok', hcap, rfl, rfl, hfresh'⟩, rfl⟩
  · obtain rfl := eq_run_of_exec hexec
    obtain rfl := eq_run_of_exec hexec'
    obtain ⟨hchange, hresponse⟩ := change_eq_of_sameForB hi h
    obtain ⟨hb, hbx, hsbox, htblok, hcap, -, -, hfresh⟩ := h
    obtain ⟨htblok', hfresh'⟩ := (i.change s').apply_shared hsbox htblok hfresh
    rw [Instr.run, Instr.run, hchange, hresponse]
    exact ⟨⟨congrArg ((i.change s').b.apply blankBlockB) hb, congrArg (i.change s').bx.apply hbx, hsbox, htblok', hcap,
      rfl, rfl, hfresh'⟩, rfl⟩

/-! The sticky flags (R30). -/

theorem refusal_withoutSticky (i : Instr) (s : State) : i.refusal s.withoutSticky = i.refusal s :=
  refusal_congr
    { tblok := rfl, cap := rfl, beats := rfl, engine_a := fun _ => ⟨rfl, rfl, rfl, rfl, rfl, rfl⟩
      engine_b := fun _ => ⟨rfl, rfl, rfl, rfl, rfl, rfl⟩, store_b := fun _ => .of_eq rfl, byte := fun _ _ _ => rfl }

/-- Checks and effect of a command read neither ERR, ERRCODE nor WRAP. -/
theorem change_withoutSticky (i : Instr) (s : State) : i.change s.withoutSticky = i.change s := by
  have hsuccess : i.success s.withoutSticky = i.success s := by cases i <;> rfl
  exact change_congr (refusal_withoutSticky i s) rfl fun _ => hsuccess

/-- Only the status word shows them. -/
theorem response_withoutSticky {i : Instr} (s : State) (hA : i ≠ .rdstatStatusA) (hB : i ≠ .rdstatStatusB) :
    i.response s.withoutSticky = i.response s := by
  have hdata : i.data s.withoutSticky = i.data s := by
    cases i
    case rdstatStatusA => exact absurd rfl hA
    case rdstatStatusB => exact absurd rfl hB
    all_goals rfl
  exact response_congr (refusal_withoutSticky i s) rfl fun _ => hdata

theorem EngineUpdate.apply_withoutSticky {α : Type} [DecidableEq α] (u : EngineUpdate α) (d : Block α) (e : Engine α) :
    (u.apply d e.withoutSticky).withoutSticky = (u.apply d e).withoutSticky := by
  cases u <;> simp [EngineUpdate.apply, Engine.withoutSticky, Engine.recordError_eq]

/-- A change of the state without its sticky flags is the change of the state, but for these. -/
theorem Change.apply_withoutSticky (c : Change) (s : State) :
    (c.apply s.withoutSticky).withoutSticky = (c.apply s).withoutSticky := by
  have hA := c.a.apply_withoutSticky blankBlockA s.a
  have hB := c.b.apply_withoutSticky blankBlockB s.b
  simp only [State.withoutSticky, Change.apply, hA, hB]

/-- Settles O18: the change of a command and, but for the status word, its response come from the state without the sticky
flags. -/
theorem stickyFlagsInfluenceNoResult : Obligations.StickyFlagsInfluenceNoResult := by
  intro i s s' t t' h hexec hexec'
  obtain rfl := eq_run_of_exec hexec
  obtain rfl := eq_run_of_exec hexec'
  have hchange : i.change s = i.change s' := by rw [← change_withoutSticky, h, change_withoutSticky]
  have happly : ((i.change s).apply s).withoutSticky = ((i.change s).apply s').withoutSticky := by
    rw [← Change.apply_withoutSticky, h, Change.apply_withoutSticky]
  rw [Instr.run, Instr.run, ← hchange]
  refine ⟨fun hA hB => ?_, congrArg ({ · with payload := [], primfail := false, response := none }) happly⟩
  have hresponse : i.response s = i.response s' := by
    rw [← response_withoutSticky s hA hB, h, response_withoutSticky s' hA hB]
  rw [hresponse]
  exact congrArg (State.respond · _) happly

end Sys2Proof.Machine
end

section
/-! Control does not depend on ciphertexts (R6, R203): two states with the same flags and counts give a command two updates
of the same kind, which may differ in what they write. -/

namespace Sys2Proof.Machine

/-- The two updates differ at most in the ciphertexts that they write. -/
inductive EngineUpdate.SameKind {α : Type} : EngineUpdate α → EngineUpdate α → Prop
  | keep : SameKind .keep .keep
  | error (c : ErrCode) : SameKind (.error c) (.error c)
  | failSt : SameKind .failSt .failSt
  | failOut : SameKind .failOut .failOut
  | putSt (blk blk' : Block α) : SameKind (.putSt blk) (.putSt blk')
  | loadSt (blk blk' : Block α) : SameKind (.loadSt blk) (.loadSt blk')
  | loadIv (blk blk' : Block α) : SameKind (.loadIv blk) (.loadIv blk')
  | loadRk (sched sched' : Schedule α) : SameKind (.loadRk sched) (.loadRk sched')
  | loadPt (idx : Nat) (blk blk' : Block α) : SameKind (.loadPt idx blk) (.loadPt idx blk')
  | putOut {blks blks' : List (Block α)} (h : blks.length = blks'.length) : SameKind (.putOut blks) (.putOut blks')
  | attachEk : SameKind .attachEk .attachEk
  | reset : SameKind .reset .reset

/-- The two updates differ at most in the ciphertexts that they write. -/
inductive StoreUpdate.SameKind : StoreUpdate → StoreUpdate → Prop
  | keep : SameKind .keep .keep
  | loadCmlo {vs vs' : List BvByte} (h : vs.length = vs'.length) : SameKind (.loadCmlo vs) (.loadCmlo vs')
  | loadCmhi {vs vs' : List BvByte} (h : vs.length = vs'.length) : SameKind (.loadCmhi vs) (.loadCmhi vs')
  | loadKonst (kf kt kf' kt' : CtB) : SameKind (.loadKonst kf kt) (.loadKonst kf' kt')
  | attachSk : SameKind .attachSk .attachSk
  | reset : SameKind .reset .reset

/-- The two changes differ at most in the ciphertexts that they write. -/
structure Change.SameKind (c c' : Change) : Prop where
  a : c.a.SameKind c'.a
  b : c.b.SameKind c'.b
  bx : c.bx.SameKind c'.bx
  recheck : c.recheck = c'.recheck

theorem EngineUpdate.SameKind.refl {α : Type} (u : EngineUpdate α) : u.SameKind u := by
  cases u with
  | putOut blks => exact .putOut rfl
  | _ => constructor

theorem StoreUpdate.SameKind.refl (u : StoreUpdate) : u.SameKind u := by
  cases u with
  | loadCmlo vs => exact .loadCmlo rfl
  | loadCmhi vs => exact .loadCmhi rfl
  | _ => constructor

theorem Change.SameKind.refl (c : Change) : c.SameKind c := ⟨.refl _, .refl _, .refl _, rfl⟩

theorem Engine.sameControl.recordError {α : Type} {e e' : Engine α} (h : e.sameControl e') (c : ErrCode) :
    (Engine.recordError c e).sameControl (Engine.recordError c e') := by
  obtain ⟨hstv, hivv, hrkv, hptv, houtn, hekv, hwrap, herr, herrcode⟩ := h
  simp [Engine.sameControl, *]

/-- Updates of the same kind keep the control of two engines equal. -/
theorem Engine.sameControl.apply {α : Type} [DecidableEq α] {d : Block α} {e e' : Engine α} (h : e.sameControl e')
    {u u' : EngineUpdate α} (hu : u.SameKind u') : (u.apply d e).sameControl (u'.apply d e') := by
  have hrest := h
  obtain ⟨hstv, hivv, hrkv, hptv, houtn, hekv, hwrap, herr, herrcode⟩ := hrest
  cases hu with
  | error c => exact h.recordError c
  | failSt =>
    have hdrop : e.dropSt.sameControl e'.dropSt := ⟨rfl, hivv, hrkv, hptv, houtn, hekv, hwrap, herr, herrcode⟩
    exact hdrop.recordError .gateFail
  | failOut =>
    have hdrop : e.dropOut.sameControl e'.dropOut := ⟨hstv, hivv, hrkv, hptv, rfl, hekv, hwrap, herr, herrcode⟩
    exact hdrop.recordError .gateFail
  | putOut hlen => simp [Engine.sameControl, EngineUpdate.apply, *]
  | _ => simp [Engine.sameControl, EngineUpdate.apply, *]

theorem BoolStore.SameFlags.apply {x x' : BoolStore} (h : x.SameFlags x') {u u' : StoreUpdate} (hu : u.SameKind u') :
    (u.apply x).SameFlags (u'.apply x') := by
  cases hu with
  | keep => exact h
  | loadCmlo hlen => exact { h with cmlon := hlen }
  | loadCmhi hlen => exact { h with cmhin := hlen }
  | loadKonst kf kt kf' kt' => exact { h with kv := rfl }
  | attachSk => exact { h with skv := rfl }
  | reset => exact ⟨rfl, rfl, rfl, rfl⟩

theorem Engine.sameControl.sameFlags {α : Type} {e e' : Engine α} (h : e.sameControl e') : e.SameFlags e' := by
  obtain ⟨hstv, hivv, hrkv, hptv, houtn, hekv, -⟩ := h
  exact ⟨hstv, hivv, hrkv, hptv, houtn, hekv⟩

/-- A command that completes does updates of the same kind where its payload has the same length. -/
theorem success_sameKind (i : Instr) {s s' : State} (hbeats : s.payload.length = s'.payload.length) :
    (i.success s).SameKind (i.success s') := by
  cases i
  case addrkA | subbA | shrowA | mixcA | encblkA => exact ⟨.putSt _ _, .keep, .keep, rfl⟩
  case addrkB | subbB | shrowB | mixcB | encblkB => exact ⟨.keep, .putSt _ _, .keep, rfl⟩
  case ctrA => exact ⟨.putOut (by simp), .keep, .keep, rfl⟩
  case ctrB => exact ⟨.keep, .putOut (by simp), .keep, rfl⟩
  case ldStA => exact ⟨.loadSt _ _, .keep, .keep, rfl⟩
  case ldStB => exact ⟨.keep, .loadSt _ _, .keep, rfl⟩
  case ldIvA => exact ⟨.loadIv _ _, .keep, .keep, rfl⟩
  case ldIvB => exact ⟨.keep, .loadIv _ _, .keep, rfl⟩
  case ldRkA => exact ⟨.loadRk _ _, .keep, .keep, rfl⟩
  case ldRkB => exact ⟨.keep, .loadRk _ _, .keep, rfl⟩
  case ldPtA idx => exact ⟨.loadPt idx _ _, .keep, .keep, rfl⟩
  case ldPtB idx => exact ⟨.keep, .loadPt idx _ _, .keep, rfl⟩
  case ldCmloB => exact ⟨.keep, .keep, .loadCmlo (by simp [State.beats, hbeats]), rfl⟩
  case ldCmhiB => exact ⟨.keep, .keep, .loadCmhi (by simp [State.beats, hbeats]), rfl⟩
  case ldKonstB => exact ⟨.keep, .keep, .loadKonst _ _ _ _, rfl⟩
  all_goals exact .refl _

section SameRefusal
variable {i : Instr} {s s' : State} (hrefusal : i.refusal s = i.refusal s') (hprimfail : s.primfail = s'.primfail)
include hrefusal hprimfail

/-- With the same checks and PRIMFAIL a command ends in the same way. -/
theorem change_sameKind (hbeats : s.payload.length = s'.payload.length) : (i.change s).SameKind (i.change s') := by
  unfold Instr.change
  rw [← hrefusal, ← hprimfail]
  cases i.refusal s with
  | some c => exact .refl _
  | none =>
    dsimp only
    split
    · exact .refl _
    · exact success_sameKind i hbeats

theorem response_number_congr : (i.response s).number = (i.response s').number := by
  unfold Instr.response
  rw [← hrefusal, ← hprimfail]
  cases i.refusal s with
  | some c => rfl
  | none =>
    dsimp only
    split
    · rfl
    · rfl

end SameRefusal

/-- Settles O21: all checks but the one of DECRYPT.B mode 1 read flags and counts, so the command ends in the same way at
both states, with updates of the same kind. -/
theorem controlDoesNotDependOnCiphertexts : Obligations.ControlDoesNotDependOnCiphertexts := by
  intro i s s' t t' hi h hexec hexec'
  obtain rfl := eq_run_of_exec hexec
  obtain rfl := eq_run_of_exec hexec'
  obtain ⟨ha, hb, hcmlon, hcmhin, hkv, hskv, hsbox, htblok, hcap, hbeats, hprimfail⟩ := h
  have hstore : s.bx.SameFlags s'.bx := ⟨hcmlon, hcmhin, hkv, hskv⟩
  have hrefusal : i.refusal s = i.refusal s' := refusal_congr
    { tblok := htblok, cap := hcap, beats := hbeats, engine_a := fun _ => ha.sameFlags
      engine_b := fun _ => hb.sameFlags, store_b := fun _ => hstore, byte := fun idx h => absurd h (hi idx) }
  have hkind := change_sameKind hrefusal hprimfail hbeats
  have hstore' := hstore.apply hkind.bx
  refine ⟨⟨ha.apply hkind.a, hb.apply hkind.b, hstore'.cmlon, hstore'.cmhin, hstore'.kv, hstore'.skv, hsbox, ?_, hcap,
    rfl, rfl⟩, congrArg some (response_number_congr hrefusal hprimfail)⟩
  rw [Instr.run_tblok, Instr.run_tblok, hkind.recheck, hsbox, htblok]

end Sys2Proof.Machine
end

section
/-! Contents that hold no value influence nothing (R34, U1): behind its checks a command reads valid contents only, so two
states that agree in these give it the same change, which keeps the agreement. -/

namespace Sys2Proof.Machine

/-- The part of `State.sameValid` that is about engine B's own store. -/
structure BoolStore.SameValid (x x' : BoolStore) : Prop where
  flags : x.SameFlags x'
  cmlo : ∀ i < x.cmlon, Memory.read BvByte.blank x.cmlo i = Memory.read BvByte.blank x'.cmlo i
  cmhi : ∀ i < x.cmhin, Memory.read BvByte.blank x.cmhi i = Memory.read BvByte.blank x'.cmhi i
  konst : x.kv = true → x.kf = x'.kf ∧ x.kt = x'.kt

/-! What a command reads. -/

section Reads
variable {s s' : State}

theorem State.sameValid.store (h : s.sameValid s') : s.bx.SameValid s'.bx :=
  ⟨⟨h.cmlon, h.cmhin, h.kv, h.skv⟩, h.cmlo, h.cmhi, h.konst⟩

theorem State.sameValid.sameChecks (h : s.sameValid s') (i : Instr) : SameChecks i s s' where
  tblok := h.tblok
  cap := h.cap
  beats := congrArg _ h.payload
  engine_a _ := h.engine_a.control.sameFlags
  engine_b _ := h.engine_b.control.sameFlags
  store_b _ := h.store.flags
  byte _ _ hstv := h.engine_b.st hstv

/-- Past its checks a command of the in-place kind finds a valid block. -/
theorem st_eq_of_inPlaceA (h : s.sameValid s') {badRound needRk needKonst needEk : Bool}
    (hr : inPlaceRefusal s s.a badRound needRk needKonst needEk = none) :
    s.a.st = s'.a.st ∧ (needRk = true → s.a.rk = s'.a.rk) := by
  obtain ⟨-, -, hstv, hrkv, -⟩ := inPlaceRefusal_eq_none_iff.1 hr
  exact ⟨h.engine_a.st hstv, fun hneed => h.engine_a.rk (hrkv hneed)⟩

/-- Past its checks a command of the in-place kind finds a valid block, and the schedule and the constants that it
needs. -/
theorem st_eq_of_inPlaceB (h : s.sameValid s') {badRound needRk needKonst needEk : Bool}
    (hr : inPlaceRefusal s s.b badRound needRk needKonst needEk = none) :
    s.b.st = s'.b.st ∧ (needRk = true → s.b.rk = s'.b.rk) ∧
      (needKonst = true → s.bx.kf = s'.bx.kf ∧ s.bx.kt = s'.bx.kt) := by
  obtain ⟨-, -, hstv, hrkv, hkv, -⟩ := inPlaceRefusal_eq_none_iff.1 hr
  exact ⟨h.engine_b.st hstv, fun hneed => h.engine_b.rk (hrkv hneed), fun hneed => h.konst (hkv hneed)⟩

theorem ctrBlocksA_eq (h : s.sameValid s') {n : Nat} (hr : ctrRefusalA s n = none) (p : Ticket) :
    (List.range n).map (ctrBlockA s p) = (List.range n).map (ctrBlockA s' p) := by
  obtain ⟨-, -, hivv, hrkv, hptv, -⟩ := ctrRefusalA_eq_none_iff.1 hr
  refine List.map_congr_left fun i hi => ?_
  have hpt : s.ptA i = s'.ptA i := h.engine_a.pt i (hptv i (List.mem_range.1 hi))
  simp only [ctrBlockA, keystreamA, modifiedIvA, State.transformsA, hpt, h.engine_a.iv hivv, h.engine_a.rk hrkv, h.sbox]

theorem ctrBlocksB_eq (h : s.sameValid s') {n : Nat} (hr : ctrRefusalB s n = none) (p : Ticket) :
    (List.range n).map (ctrBlockB s p) = (List.range n).map (ctrBlockB s' p) := by
  obtain ⟨-, -, hcmlon, hcmhin, hivv, hrkv, hkv, hptv, -⟩ := ctrRefusalB_eq_none_iff.1 hr
  obtain ⟨hkf, hkt⟩ := h.konst hkv
  refine List.map_congr_left fun i hi => ?_
  have hlt : i < n := List.mem_range.1 hi
  have hpt : s.ptB i = s'.ptB i := h.engine_b.pt i (hptv i hlt)
  have hlo : s.cmlo i = s'.cmlo i := h.cmlo i (by omega)
  have hhi : s.cmhi i = s'.cmhi i := h.cmhi i (by omega)
  simp only [ctrBlockB, keystreamB, modifiedIvB, State.transformsB, hpt, hlo, hhi, hkf, hkt, h.engine_b.iv hivv,
    h.engine_b.rk hrkv]

/-- Past its checks a command has the same effect at both states. -/
theorem success_eq_of_sameValid {i : Instr} (h : s.sameValid s') (hr : i.refusal s = none) :
    i.success s = i.success s' := by
  have hfresh := h.fresh
  cases i
  case addrkA t | encblkA =>
    obtain ⟨hst, hrk⟩ := st_eq_of_inPlaceA h hr
    simp only [Instr.success, State.transformsA, hst, hrk rfl, hfresh, h.sbox]
  case addrkB t =>
    obtain ⟨hst, hrk, -⟩ := st_eq_of_inPlaceB h hr
    simp only [Instr.success, hst, hrk rfl, hfresh]
  case encblkB =>
    obtain ⟨hst, hrk, hkonst⟩ := st_eq_of_inPlaceB h hr
    obtain ⟨hkf, hkt⟩ := hkonst rfl
    simp only [Instr.success, State.transformsB, hst, hrk rfl, hkf, hkt, hfresh]
  case subbA | shrowA | mixcA =>
    obtain ⟨hst, -⟩ := st_eq_of_inPlaceA h hr
    simp only [Instr.success, hst, hfresh, h.sbox]
  case subbB | shrowB =>
    obtain ⟨hst, -⟩ := st_eq_of_inPlaceB h hr
    simp only [Instr.success, hst, hfresh]
  case mixcB =>
    obtain ⟨hst, -, hkonst⟩ := st_eq_of_inPlaceB h hr
    obtain ⟨hkf, hkt⟩ := hkonst rfl
    simp only [Instr.success, hst, hkf, hkt, hfresh]
  case ctrA n => simp only [Instr.success, ctrBlocksA_eq h hr, hfresh]
  case ctrB n => simp only [Instr.success, ctrBlocksB_eq h hr, hfresh]
  case ldStA | ldIvA | ldRkA | ldPtA => simp only [Instr.success, State.beatsA, State.beatA, h.payload]
  case ldStB | ldIvB | ldRkB | ldPtB => simp only [Instr.success, State.beatsB, State.beatB, h.payload]
  case ldCmloB | ldCmhiB =>
    have hbeat : s.beatB = s'.beatB := funext fun k => by simp only [State.beatB, h.payload]
    simp only [Instr.success, State.beats, hbeat, h.payload]
  case ldKonstB => simp only [Instr.success, State.beatBit, h.payload]
  all_goals rfl

theorem statusWord_congr {α : Type} {e e' : Engine α} (h : e.sameControl e') (eng skv kv tblok : Bool) :
    statusWord eng skv kv tblok e = statusWord eng skv kv tblok e' := by
  obtain ⟨hstv, hivv, hrkv, -, -, hekv, hwrap, herr, herrcode⟩ := h
  simp only [statusWord, hstv, hivv, hrkv, hekv, hwrap, herr, herrcode]

/-- Past its checks a command responds with the same data at both states. -/
theorem data_eq_of_sameValid {i : Instr} (h : s.sameValid s') (hr : i.refusal s = none) : i.data s = i.data s' := by
  cases i
  case stStA => simp only [Instr.data, h.engine_a.st (stv_of_storeStRefusal hr)]
  case stStB => simp only [Instr.data, h.engine_b.st (stv_of_storeStRefusal hr)]
  case stOutA idx => exact congrArg RespData.blockA (h.engine_a.out idx (lt_of_storeOutRefusal hr))
  case stOutB idx => exact congrArg RespData.blockB (h.engine_b.out idx (lt_of_storeOutRefusal hr))
  case decryptB mode idx => simp only [Instr.data, h.engine_b.st (stv_of_decryptRefusal hr)]
  case rdstatStatusA => simp only [Instr.data, State.statusA, statusWord_congr h.engine_a.control, h.tblok]
  case rdstatStatusB => simp only [Instr.data, State.statusB, statusWord_congr h.engine_b.control, h.tblok, h.skv, h.kv]
  case rdstatOutnA => simp only [Instr.data, h.engine_a.control.sameFlags.outn]
  case rdstatOutnB => simp only [Instr.data, h.engine_b.control.sameFlags.outn]
  case rdstatCmlonB => simp only [Instr.data, h.cmlon]
  case rdstatCmhinB => simp only [Instr.data, h.cmhin]
  case rdstatCapA | rdstatCapB => simp only [Instr.data, h.cap]
  all_goals rfl

/-- A command does and responds the same at both states. -/
theorem change_eq_of_sameValid (h : s.sameValid s') (i : Instr) :
    i.change s = i.change s' ∧ i.response s = i.response s' := by
  have hrefusal := refusal_congr (h.sameChecks i)
  exact ⟨change_congr hrefusal h.primfail (success_eq_of_sameValid h),
    response_congr hrefusal h.primfail (data_eq_of_sameValid h)⟩

end Reads

/-! What a change keeps. -/

/-- One update of two engines that agree in their valid contents: what it writes is valid in both and equal. -/
theorem Engine.sameValid.apply {α : Type} [DecidableEq α] {d : Block α} {n n' : Nat} {e e' : Engine α}
    (h : e.sameValid d e') (hinv : e.Inv d n) (hinv' : e'.Inv d n') (u : EngineUpdate α) :
    (u.apply d e).sameValid d (u.apply d e') := by
  have hcontrol := h.control.apply (d := d) (.refl u)
  obtain ⟨-, hst, hiv, hrk, hpt, hout⟩ := h
  cases u
  case loadPt idx blk =>
    obtain ⟨hblk, -, hothers⟩ := hinv.loadPt_reads idx blk
    obtain ⟨hblk', -, hothers'⟩ := hinv'.loadPt_reads idx blk
    refine ⟨hcontrol, hst, hiv, hrk, fun i hi => ?_, hout⟩
    by_cases hidx : i = idx
    · exact hidx ▸ hblk.trans hblk'.symm
    · obtain ⟨hread, hvalid⟩ := hothers i hidx
      exact hread.trans ((hpt i (hvalid.symm.trans hi)).trans (hothers' i hidx).1.symm)
  case putOut blks =>
    refine ⟨hcontrol, hst, hiv, hrk, hpt, fun i (hi : i < blks.length) => ?_⟩
    have hread := Memory.read_fill hinv.out_wf blks.length (blks.getD · d) i
    have hread' := Memory.read_fill hinv'.out_wf blks.length (blks.getD · d) i
    exact hread.trans ((if_pos hi).trans ((if_pos hi).symm.trans hread'.symm))
  case reset => exact ⟨hcontrol, nofun, nofun, nofun, nofun, nofun⟩
  all_goals constructor <;> simp_all [EngineUpdate.apply, Engine.ptValid]

theorem BoolStore.SameValid.apply {n n' : Nat} {x x' : BoolStore} (h : x.SameValid x') (hinv : x.Inv n)
    (hinv' : x'.Inv n') (u : StoreUpdate) : (u.apply x).SameValid (u.apply x') := by
  have hflags := h.flags.apply (.refl u)
  cases u with
  | keep => exact h
  | loadCmlo vs =>
    refine { h with flags := hflags, cmlo := fun i (hi : i < vs.length) => ?_ }
    have hread := Memory.read_fill hinv.cmlo_wf vs.length (vs.getD · BvByte.blank) i
    have hread' := Memory.read_fill hinv'.cmlo_wf vs.length (vs.getD · BvByte.blank) i
    exact hread.trans ((if_pos hi).trans ((if_pos hi).symm.trans hread'.symm))
  | loadCmhi vs =>
    refine { h with flags := hflags, cmhi := fun i (hi : i < vs.length) => ?_ }
    have hread := Memory.read_fill hinv.cmhi_wf vs.length (vs.getD · BvByte.blank) i
    have hread' := Memory.read_fill hinv'.cmhi_wf vs.length (vs.getD · BvByte.blank) i
    exact hread.trans ((if_pos hi).trans ((if_pos hi).symm.trans hread'.symm))
  | loadKonst kf kt => exact { h with flags := hflags, konst := fun _ => ⟨rfl, rfl⟩ }
  | attachSk => exact { h with flags := hflags }
  | reset => exact ⟨hflags, nofun, nofun, nofun⟩

section Steps
variable {s s' : State}

theorem State.sameValid.apply (h : s.sameValid s') (hinv : s.StorageInv) (hinv' : s'.StorageInv) (c : Change) :
    (c.apply s).sameValid (c.apply s') := by
  have hstore := h.store.apply hinv.store_b hinv'.store_b c.bx
  exact
    { h with
      engine_a := h.engine_a.apply hinv.engine_a hinv'.engine_a c.a
      engine_b := h.engine_b.apply hinv.engine_b hinv'.engine_b c.b
      cmlon := hstore.flags.cmlon
      cmlo := hstore.cmlo
      cmhin := hstore.flags.cmhin
      cmhi := hstore.cmhi
      kv := hstore.flags.kv
      konst := hstore.konst
      skv := hstore.flags.skv
      tblok := (c.apply_shared h.sbox h.tblok h.fresh).1
      fresh := (c.apply_shared h.sbox h.tblok h.fresh).2 }

theorem State.sameValid.respond (h : s.sameValid s') (r : Response) : (s.respond r).sameValid (s'.respond r) :=
  { h with response := rfl, payload := rfl, primfail := rfl }

theorem State.sameValid.accept (h : s.sameValid s') (p : List Beat) (b : Bool) (rest : List HostInput) :
    (s.accept p b rest).sameValid (s'.accept p b rest) :=
  { h with input := rfl, payload := rfl, primfail := rfl }

theorem State.sameValid.run (h : s.sameValid s') (hinv : s.StorageInv) (hinv' : s'.StorageInv) (i : Instr) :
    (i.run s).sameValid (i.run s') := by
  obtain ⟨hchange, hresponse⟩ := change_eq_of_sameValid h i
  rw [Instr.run, Instr.run, hchange, hresponse]
  exact (h.apply hinv hinv' _).respond _

/-- The hardware reset is both resets at once, without a response. -/
theorem State.sameValid.hardwareReset (h : s.sameValid s') (hinv : s.StorageInv) (hinv' : s'.StorageInv)
    (rest : List HostInput) :
    ({ s with input := rest }).hardwareReset.sameValid ({ s' with input := rest }).hardwareReset :=
  { h.apply hinv hinv' { a := .reset, b := .reset, bx := .reset, recheck := true } with
    input := rfl
    payload := rfl
    primfail := rfl
    response := rfl
    fresh := h.fresh }

end Steps

/-- Settles O22: both states present the same, and the change that the step makes is the same at both. -/
theorem invalidContentsInfluenceNothing : Obligations.InvalidContentsInfluenceNothing := by
  intro s s' t t' hinv hinv' h hstep hstep'
  cases stepsTo_of_step hstep with
  | idle hinput =>
    cases (step_idle (h.input ▸ hinput)).symm.trans hstep'
    exact h
  | hardwareReset hinput =>
    cases (step_hardwareReset (h.input ▸ hinput)).symm.trans hstep'
    exact h.hardwareReset hinv.storage hinv'.storage _
  | @command w p b rest i hinput hdecode =>
    cases ((step_command (h.input ▸ hinput) hdecode).trans (exec_eq i _)).symm.trans hstep'
    exact (h.accept p b rest).run (hinv.storage.accept ..) (hinv'.storage.accept ..) i
  | @illegal w p b rest hinput hdecode =>
    cases (step_undecoded (h.input ▸ hinput) hdecode).symm.trans hstep'
    exact ((h.accept p b rest).apply (hinv.storage.accept ..) (hinv'.storage.accept ..) _).respond _

end Sys2Proof.Machine
end

section
/-! The agreement of the engines in CTR (R223), and ENCSEQ against ENCBLK (R101, R204): the 40 commands are the 40 steps of
the table of R200, and what a step denotes depends neither on its ticket nor on which ciphertexts carry its input. -/

namespace Sys2Proof.Machine

/-- Settles O57: with equal inputs the two value laws differ in the counter bytes and the doubling only, which the host
duties make equal. -/
theorem ctrAgreesOnBothEngines : Obligations.CtrAgreesOnBothEngines := by
  intro n s ta tb hinv hfix hkonst hcounter hrk hiv hpt hexecA hokA hexecB hokB i hi
  rw [denoteA_outA_of_ctrA_ok hinv hfix hexecA hokA hi, denoteB_outB_of_ctrB_ok hinv hexecB hokB hi, State.ctrBytesA,
    State.ctrBytesB, hkonst.doubleBits_eq, hcounter.modifiedIv_eq hi, hrk, hiv, hpt i hi]

/-- One step of the table of R200. -/
inductive RoundStep where
  | addRoundKey (t : Fin 11)
  | subBytes
  | shiftRows
  | mixColumns

namespace RoundStep

/-- The command that does the step on engine A. -/
def onA (o : RoundStep) : Instr :=
  match o with
  | addRoundKey t => .addrkA t
  | subBytes => .subbA
  | shiftRows => .shrowA
  | mixColumns => .mixcA

/-- The command that does the step on engine B. -/
def onB (o : RoundStep) : Instr :=
  match o with
  | addRoundKey t => .addrkB t
  | subBytes => .subbB
  | shiftRows => .shrowB
  | mixColumns => .mixcB

/-- The step on a block, with the transforms of an engine. -/
def apply {α : Type} (o : RoundStep) (f : Transforms α) (p : Ticket) (b : Block α) : Block α :=
  match o with
  | addRoundKey t => f.addRoundKey p t b
  | subBytes => f.subBytes p b
  | shiftRows => Machine.shiftRows b
  | mixColumns => f.mixColumns p b

/-- The steps of round `t` in 1 to 9. -/
def round (t : Fin 11) : List RoundStep := [subBytes, shiftRows, mixColumns, addRoundKey t]

/-- The 40 steps of R200 in order, each with its number. -/
def table : List (RoundStep × Nat) :=
  (addRoundKey 0 :: ([1, 2, 3, 4, 5, 6, 7, 8, 9].flatMap round ++ [subBytes, shiftRows, addRoundKey 10])).zipIdx

/-- A list of numbered steps, each with its number in its ticket. -/
def applyAll {α : Type} (steps : List (RoundStep × Nat)) (f : Transforms α) (p : Ticket) (b : Block α) : Block α :=
  steps.foldl (fun b x => x.1.apply f (x.2 :: p) b) b

theorem encseqA_eq_table : encseqA = table.map fun x => onA x.1 := rfl

theorem encseqB_eq_table : encseqB = table.map fun x => onB x.1 := rfl

/-- The driver does the steps of its table. -/
theorem encryptBlock_eq_applyAll {α : Type} (f : Transforms α) (p : Ticket) (b : Block α) :
    encryptBlock f p b = applyAll table f p b := rfl

theorem wellFormed_onA (o : RoundStep) : o.onA.wellFormed := by
  cases o with
  | addRoundKey t => exact Nat.lt_trans t.isLt (by decide)
  | _ => decide

theorem wellFormed_onB (o : RoundStep) : o.onB.wellFormed := by
  cases o with
  | addRoundKey t => exact Nat.lt_trans t.isLt (by decide)
  | _ => decide

end RoundStep

/-- What the steps denote depends on what their input denotes, and not on tickets. -/
def Transforms.Respects {α β : Type} (f : Transforms α) (denote : Block α → β) : Prop :=
  ∀ (o : RoundStep) (p q : Ticket) (b b' : Block α), denote b = denote b' → denote (o.apply f p b) = denote (o.apply f q b')

/-- SubBytes on engine A denotes the lookup of each byte, whatever the table (R131). -/
theorem denoteA_subBytesA (table : Vector (Byte × Byte) 256) (p : Ticket) (b : Block CtA) :
    denoteA (subBytesA table p b) = (denoteA b).map (tableLookup table) := by
  apply Vector.ext
  intro i hi
  rw [denoteA_getElem, subBytesA_getElem_val, Vector.getElem_map, denoteA_getElem]

theorem State.transformsA_respects (s : State) : s.transformsA.Respects denoteA := by
  intro o p q b b' h
  cases o with
  | addRoundKey t => simp only [RoundStep.apply, State.transformsA, denoteA_addRoundKeyA, h]
  | subBytes => simp only [RoundStep.apply, State.transformsA, denoteA_subBytesA, h]
  | shiftRows => simp only [RoundStep.apply, denoteA_shiftRows, h]
  | mixColumns => simp only [RoundStep.apply, State.transformsA, denoteA_mixColumnsA, h]

theorem State.transformsB_respects (s : State) : s.transformsB.Respects denoteB := by
  intro o p q b b' h
  cases o with
  | addRoundKey t => simp only [RoundStep.apply, State.transformsB, denoteB_addRoundKeyB, h]
  | subBytes => simp only [RoundStep.apply, State.transformsB, denoteB_subBytesB, h]
  | shiftRows => simp only [RoundStep.apply, denoteB_shiftRows, h]
  | mixColumns => simp only [RoundStep.apply, State.transformsB, denoteB_mixColumnsB, h]

/-! Running a list of steps. -/

theorem run_succ {s u : State} (h : step s = .next u) (n : Nat) :
    Host.Core.run Sys2Proof.core (n + 1) s = Host.Core.run Sys2Proof.core n u := by
  have hcore : Sys2Proof.core.step s = .next u := h
  simp only [Host.Core.run, hcore]

/-- A presented command that is well-formed runs. -/
theorem step_present {s : State} {i : Instr} {rest : List HostInput} (hinput : s.input = present i :: rest)
    (hwf : i.wellFormed) : step s = .next (i.run (s.accept [] false rest)) :=
  (step_command hinput (encodedCommandDecodesToItself i 0 hwf (.inr rfl))).trans (exec_eq i _)

/-- A command that passes its checks, where no primitive fails. -/
theorem run_of_passing {i : Instr} {s : State} (hr : i.refusal s = none) (hp : s.primfail = false) :
    i.run s = ((i.success s).apply s).completed (i.data s) := by
  obtain ⟨c, hc, -⟩ | ⟨-, -, hprim, -⟩ | ⟨-, -, hchange, hresponse⟩ := i.change_cases s
  · cases hr.symm.trans hc
  · cases hp.symm.trans hprim
  · rw [Instr.run, hchange, hresponse, State.respond_ok]

/-- What one engine needs for a list of steps: at a state that is ready, the command of a step is run by one machine step,
does the step on the engine's block, and leaves the state ready. -/
structure RunsSteps {α : Type} (op : RoundStep → Instr) (f : Transforms α) (st : State → Block α)
    (Ready : State → Prop) : Prop where
  runs : ∀ {s : State} {o : RoundStep} {rest : List HostInput}, Ready s → s.input = present (op o) :: rest →
    ∃ u p, step s = .next u ∧ u.input = rest ∧ u.response = some (.ok .empty) ∧ st u = o.apply f p (st s) ∧ Ready u

/-- Running the commands of a list of steps leaves what the steps denote, whatever tickets they take. -/
theorem RunsSteps.run_eq {α β : Type} {op : RoundStep → Instr} {f : Transforms α} {st : State → Block α}
    {Ready : State → Prop} (hruns : RunsSteps op f st Ready) {denote : Block α → β} (hf : f.Respects denote) (p : Ticket)
    {rest : List HostInput} (steps : List (RoundStep × Nat)) {s : State} {b : Block α} (hready : Ready s)
    (hinput : s.input = (steps.map fun x => op x.1).map present ++ rest) (hst : denote (st s) = denote b) :
    ∃ u, Host.Core.run Sys2Proof.core steps.length s = .next u ∧ u.input = rest ∧
      (steps ≠ [] → u.response = some (.ok .empty)) ∧
      denote (st u) = denote (RoundStep.applyAll steps f p b) := by
  induction steps generalizing s b with
  | nil => exact ⟨s, rfl, hinput, nofun, hst⟩
  | cons x steps ih =>
    obtain ⟨u, q, hstep, hrest, hresp, hblock, hready'⟩ := hruns.runs hready hinput
    obtain ⟨v, hrun, hinput', hresp', hden⟩ :=
      ih hready' hrest (b := x.1.apply f (x.2 :: p) b) (by rw [hblock]; exact hf _ _ _ _ _ hst)
    refine ⟨v, (run_succ hstep _).trans hrun, hinput', fun _ => ?_, hden⟩
    by_cases hnil : steps = []
    · subst hnil
      cases hrun
      exact hresp
    · exact hresp' hnil

/-! The commands of the steps on each engine. -/

/-- Engine A passes the checks of ENCBLK.A, which include those of every step, and computes with the transforms `f`. -/
def ReadyA (f : Transforms CtA) (s : State) : Prop :=
  inPlaceRefusal s s.a false true false true = none ∧ s.transformsA = f

/-- Engine B passes the checks of ENCBLK.B, which include those of every step, and computes with the transforms `f`. -/
def ReadyB (f : Transforms BvByte) (s : State) : Prop :=
  inPlaceRefusal s s.b false true true true = none ∧ s.transformsB = f

theorem refusal_onA {s : State} (h : inPlaceRefusal s s.a false true false true = none) (o : RoundStep) :
    o.onA.refusal s = none := by
  obtain ⟨htblok, -, hstv, hrkv, -, hekv⟩ := inPlaceRefusal_eq_none_iff.1 h
  cases o with
  | addRoundKey t =>
    exact inPlaceRefusal_eq_none_iff.2 ⟨htblok, decide_eq_false (by omega), hstv, hrkv, nofun, hekv⟩
  | subBytes | mixColumns => exact inPlaceRefusal_eq_none_iff.2 ⟨htblok, rfl, hstv, nofun, nofun, hekv⟩
  | shiftRows => exact inPlaceRefusal_eq_none_iff.2 ⟨htblok, rfl, hstv, nofun, nofun, nofun⟩

theorem refusal_onB {s : State} (h : inPlaceRefusal s s.b false true true true = none) (o : RoundStep) :
    o.onB.refusal s = none := by
  obtain ⟨htblok, -, hstv, hrkv, hkv, hekv⟩ := inPlaceRefusal_eq_none_iff.1 h
  cases o with
  | addRoundKey t =>
    exact inPlaceRefusal_eq_none_iff.2 ⟨htblok, decide_eq_false (by omega), hstv, hrkv, nofun, hekv⟩
  | subBytes => exact inPlaceRefusal_eq_none_iff.2 ⟨htblok, rfl, hstv, nofun, nofun, hekv⟩
  | mixColumns => exact inPlaceRefusal_eq_none_iff.2 ⟨htblok, rfl, hstv, nofun, hkv, hekv⟩
  | shiftRows => exact inPlaceRefusal_eq_none_iff.2 ⟨htblok, rfl, hstv, nofun, nofun, nofun⟩

/-- The command of a step on engine A puts the result of the step in ST.A and changes no other storage. -/
theorem success_onA (o : RoundStep) (s : State) :
    (o.onA.success s).a = .putSt (o.apply s.transformsA [s.fresh] s.a.st) ∧ (o.onA.success s).recheck = false := by
  cases o with
  | addRoundKey t => simp [RoundStep.onA, Instr.success, RoundStep.apply, State.transformsA]
  | _ => exact ⟨rfl, rfl⟩

/-- The command of a step on engine B puts the result of the step in ST.B and changes no other storage. -/
theorem success_onB (o : RoundStep) (s : State) :
    (o.onB.success s).b = .putSt (o.apply s.transformsB [s.fresh] s.b.st) ∧ (o.onB.success s).bx = .keep ∧
      (o.onB.success s).recheck = false := by
  cases o with
  | addRoundKey t => simp [RoundStep.onB, Instr.success, RoundStep.apply, State.transformsB]
  | _ => exact ⟨rfl, rfl, rfl⟩

theorem data_onA (o : RoundStep) (s : State) : o.onA.data s = .empty := by
  cases o <;> rfl

theorem data_onB (o : RoundStep) (s : State) : o.onB.data s = .empty := by
  cases o <;> rfl

theorem runsSteps_onA (f : Transforms CtA) : RunsSteps RoundStep.onA f (fun s => s.a.st) (ReadyA f) where
  runs := by
    rintro s o rest ⟨hchecks, rfl⟩ hinput
    obtain ⟨hupdate, hrecheck⟩ := success_onA o (s.accept [] false rest)
    have hrun := run_of_passing (refusal_onA (s := s.accept [] false rest) hchecks o) rfl
    rw [data_onA] at hrun
    have ha : (o.onA.run (s.accept [] false rest)).a =
        Engine.putSt (o.apply s.transformsA [s.fresh] s.a.st) s.a := by
      rw [hrun, State.completed_a, Change.apply_a, hupdate]
      rfl
    have htblok : (o.onA.run (s.accept [] false rest)).tblok = s.tblok := by
      rw [hrun, State.completed_tblok, Change.apply_tblok, hrecheck]
      rfl
    refine ⟨_, [s.fresh], step_present hinput o.wellFormed_onA, rfl, ?_, congrArg Engine.st ha, ?_, ?_⟩
    · rw [hrun, State.completed_response]
    · refine (inPlaceRefusal_congr (needKonst := false) htblok ?_ nofun).trans hchecks
      rw [ha]
      exact ⟨rfl, rfl, rfl, rfl, rfl, rfl⟩
    · rw [State.transformsA, ha]
      rfl

theorem runsSteps_onB (f : Transforms BvByte) : RunsSteps RoundStep.onB f (fun s => s.b.st) (ReadyB f) where
  runs := by
    rintro s o rest ⟨hchecks, rfl⟩ hinput
    obtain ⟨hupdate, hstore, hrecheck⟩ := success_onB o (s.accept [] false rest)
    have hrun := run_of_passing (refusal_onB (s := s.accept [] false rest) hchecks o) rfl
    rw [data_onB] at hrun
    have hb : (o.onB.run (s.accept [] false rest)).b =
        Engine.putSt (o.apply s.transformsB [s.fresh] s.b.st) s.b := by
      rw [hrun, State.completed_b, Change.apply_b, hupdate]
      rfl
    have hbx : (o.onB.run (s.accept [] false rest)).bx = s.bx := by
      rw [hrun, State.completed_bx, Change.apply_bx, hstore]
      rfl
    have htblok : (o.onB.run (s.accept [] false rest)).tblok = s.tblok := by
      rw [hrun, State.completed_tblok, Change.apply_tblok, hrecheck]
      rfl
    refine ⟨_, [s.fresh], step_present hinput o.wellFormed_onB, rfl, ?_, congrArg Engine.st hb, ?_, ?_⟩
    · rw [hrun, State.completed_response]
    · refine (inPlaceRefusal_congr htblok ?_ fun _ => by rw [hbx]).trans hchecks
      rw [hb]
      exact ⟨rfl, rfl, rfl, rfl, rfl, rfl⟩
    · rw [State.transformsB, hb, hbx]
      rfl

/-- Settles O55: running the steps of the table and doing them in one command denote the same. -/
theorem encseqEqualsEncblk : Obligations.EncseqEqualsEncblk := by
  refine ⟨fun s t rest hinput hprim hchecks hexec => ?_, fun s t rest hinput hprim hchecks hexec => ?_⟩
  · rw [RoundStep.encseqA_eq_table] at hinput
    obtain ⟨u, hrun, hrest, hresp, hden⟩ := (runsSteps_onA s.transformsA).run_eq s.transformsA_respects [s.fresh]
      RoundStep.table ⟨hchecks, rfl⟩ hinput rfl
    refine ⟨u, hrun, hrest, hresp nofun, hden.trans (congrArg denoteA ?_)⟩
    rw [eq_run_of_exec hexec, run_of_passing (i := .encblkA) hchecks hprim, ← RoundStep.encryptBlock_eq_applyAll]
    rfl
  · rw [RoundStep.encseqB_eq_table] at hinput
    obtain ⟨u, hrun, hrest, hresp, hden⟩ := (runsSteps_onB s.transformsB).run_eq s.transformsB_respects [s.fresh]
      RoundStep.table ⟨hchecks, rfl⟩ hinput rfl
    refine ⟨u, hrun, hrest, hresp nofun, hden.trans (congrArg denoteB ?_)⟩
    rw [eq_run_of_exec hexec, run_of_passing (i := .encblkB) hchecks hprim, ← RoundStep.encryptBlock_eq_applyAll]
    rfl

end Sys2Proof.Machine
end
